-- ==== Sys2Proof/Word.lean ====
section
/-! DEFINITION. The widths of the hardware's words (spec/00_scope.md R6). -/

namespace Sys2Proof

/-- VLEN: a general register, a timer, a memory cell (R6). -/
abbrev Byte := BitVec 8

/-- ILEN and PCLEN: an instruction word, PC, a stack entry (R6). -/
abbrev Word := BitVec 16

/-- A 12-bit address immediate, the field `addr` (R91). -/
abbrev Addr := BitVec 12

/-- A 4-bit field: `x`, `y`, `n` (R91). -/
abbrev Nib := BitVec 4

end Sys2Proof
end

