-- ==== Sys2Proof/Syntax.lean ====
section
/-! DEFINITION. The instructions: one constructor per row of spec/opcode_table.json (spec/30_encoding.md R100). -/

namespace Sys2Proof

/-- The instruction set, in the order of R100. A 4-bit field is a `Nib`, `kk` a `Byte`, `addr` an `Addr`. -/
inductive Instr where
  /-- `00E0` CLS (R130). -/
  | cls
  /-- `00EE` RET (R131). -/
  | ret
  /-- `0nnn` SYS addr, the space with no handler (R132). -/
  | sys (addr : Addr)
  /-- `1nnn` JP addr (R133). -/
  | jp (addr : Addr)
  /-- `2nnn` CALL addr (R134). -/
  | call (addr : Addr)
  /-- `3xkk` SE Vx, kk (R140). -/
  | seImm (x : Nib) (kk : Byte)
  /-- `4xkk` SNE Vx, kk (R141). -/
  | sneImm (x : Nib) (kk : Byte)
  /-- `5xyn` SE Vx, Vy; n is kept and not examined (R98, R142). -/
  | seReg (x y n : Nib)
  /-- `6xkk` LD Vx, kk (R150). -/
  | ldImm (x : Nib) (kk : Byte)
  /-- `7xkk` ADD Vx, kk (R151). -/
  | addImm (x : Nib) (kk : Byte)
  /-- `8xy0` LD Vx, Vy (R155). -/
  | ldReg (x y : Nib)
  /-- `8xy1` OR Vx, Vy (R156). -/
  | orReg (x y : Nib)
  /-- `8xy2` AND Vx, Vy (R157). -/
  | andReg (x y : Nib)
  /-- `8xy3` XOR Vx, Vy (R158). -/
  | xorReg (x y : Nib)
  /-- `8xy4` ADD Vx, Vy (R159). -/
  | addReg (x y : Nib)
  /-- `8xy5` SUB Vx, Vy (R160). -/
  | subReg (x y : Nib)
  /-- `8xy6` SHR Vx, Vy (R161). -/
  | shr (x y : Nib)
  /-- `8xy7` SUBN Vx, Vy (R162). -/
  | subnReg (x y : Nib)
  /-- `8xyE` SHL Vx, Vy (R163). -/
  | shl (x y : Nib)
  /-- `9xyn` SNE Vx, Vy; n is kept and not examined (R98, R143). -/
  | sneReg (x y n : Nib)
  /-- `Annn` LD I, addr (R170). -/
  | ldI (addr : Addr)
  /-- `Bnnn` JP V0, addr (R171). -/
  | jpV0 (addr : Addr)
  /-- `Cxkk` RND Vx, kk (R172). -/
  | rnd (x : Nib) (kk : Byte)
  /-- `Dxyn` DRW Vx, Vy, n (R180). -/
  | drw (x y n : Nib)
  /-- `Ex9E` SKP Vx (R190). -/
  | skp (x : Nib)
  /-- `ExA1` SKNP Vx (R191). -/
  | sknp (x : Nib)
  /-- `Fx07` LD Vx, DT (R195). -/
  | ldVxDt (x : Nib)
  /-- `Fx0A` LD Vx, K (R196). -/
  | ldVxK (x : Nib)
  /-- `Fx15` LD DT, Vx (R197). -/
  | ldDtVx (x : Nib)
  /-- `Fx18` LD ST, Vx (R198). -/
  | ldStVx (x : Nib)
  /-- `Fx1E` ADD I, Vx (R199). -/
  | addI (x : Nib)
  /-- `Fx29` LD F, Vx (R200). -/
  | ldF (x : Nib)
  /-- `Fx33` LD B, Vx (R201). -/
  | ldB (x : Nib)
  /-- `Fx55` LD [I], Vx: store V0 to Vx (R202). -/
  | storeRegs (x : Nib)
  /-- `Fx65` LD Vx, [I]: load V0 to Vx (R203). -/
  | loadRegs (x : Nib)
deriving DecidableEq, Repr

/-- One row of the opcode map of R100: a word w is of the row when `w &&& mask = pattern`. -/
structure OpcodeRow where
  mnemonic : String
  pattern : Word
  mask : Word
deriving DecidableEq, Repr

end Sys2Proof
end

