-- ==== Sys2Proof/WellFormed.lean ====
section
/-! DEFINITION. The one check an instruction term needs: field widths are in the types, and the only overlap of
the opcode map is SYS with CLS and RET (spec/30_encoding.md R97, R100). -/

namespace Sys2Proof

/-- `SYS 0x0E0` and `SYS 0x0EE` are no instructions: those words are CLS and RET, whose rows take precedence
(R97, R100). Every other term stands for a word. -/
def Instr.wf : Instr → Bool
  | .sys addr => addr ≠ 0x0E0 && addr ≠ 0x0EE
  | .cls | .ret | .jp _ | .call _ | .seImm _ _ | .sneImm _ _ | .seReg _ _ _ | .ldImm _ _ | .addImm _ _
  | .ldReg _ _ | .orReg _ _ | .andReg _ _ | .xorReg _ _ | .addReg _ _ | .subReg _ _ | .shr _ _ | .subnReg _ _
  | .shl _ _ | .sneReg _ _ _ | .ldI _ | .jpV0 _ | .rnd _ _ | .drw _ _ _ | .skp _ | .sknp _ | .ldVxDt _
  | .ldVxK _ | .ldDtVx _ | .ldStVx _ | .addI _ | .ldF _ | .ldB _ | .storeRegs _ | .loadRegs _ => true

end Sys2Proof
end

