-- ==== Sys2Proof/Decode.lean ====
section
/-! DEFINITION. The decoder (spec/30_encoding.md R90 to R99), total on words and on bytes, rejecting by name, and
the encoder and opcode map written from R93 and R100. -/

namespace Sys2Proof

/-! ### Fields (R91) -/

/-- Bits 15:12, the family selector. -/
def nibbleOf (w : Word) : Nib := w.extractLsb' 12 4
/-- Bits 11:8, register operand 1. -/
def xOf (w : Word) : Nib := w.extractLsb' 8 4
/-- Bits 7:4, register operand 2. -/
def yOf (w : Word) : Nib := w.extractLsb' 4 4
/-- Bits 3:0, 4-bit immediate or sub-opcode. -/
def nOf (w : Word) : Nib := w.extractLsb' 0 4
/-- Bits 7:0, 8-bit immediate or sub-opcode. -/
def kkOf (w : Word) : Byte := w.extractLsb' 0 8
/-- Bits 11:0, the address immediate. -/
def addrOf (w : Word) : Addr := w.extractLsb' 0 12

/-- The high byte of a word, the one at the lower address (R65, R66). -/
def hiByte (w : Word) : Byte := w.extractLsb' 8 8
/-- The low byte of a word. -/
def loByte (w : Word) : Byte := w.extractLsb' 0 8
/-- `(hi << 8) | lo`, big-endian (R65). -/
def wordOfBytes (hi lo : Byte) : Word := hi ++ lo

/-! ### Decoding -/

/-- Why a word is no instruction with a row of the opcode map (R99), or why bytes hold no word. -/
inductive DecodeReject where
  /-- Family 8 with n in 8, 9, A, B, C, D, F (R164). -/
  | undefinedSelector8
  /-- Family E with kk other than 9E, A1 (R193). -/
  | undefinedSelectorE
  /-- Family F with kk outside the nine selectors (R204). -/
  | undefinedSelectorF
  /-- Fewer than two bytes: not a whole instruction word (R90). -/
  | truncated
deriving DecidableEq, Repr

/-- What decoding a word answers. -/
inductive Decoded where
  | ok (i : Instr)
  | rejected (r : DecodeReject)
deriving DecidableEq, Repr

/-- Family 0 selects on the whole word (R97). -/
def decode0 (w : Word) : Decoded :=
  if w = 0x00E0 then .ok .cls
  else if w = 0x00EE then .ok .ret
  else .ok (.sys (addrOf w))

/-- Family 8 selects on n (R96). -/
def decode8 (w : Word) : Decoded :=
  let x := xOf w
  let y := yOf w
  if nOf w = 0x0 then .ok (.ldReg x y)
  else if nOf w = 0x1 then .ok (.orReg x y)
  else if nOf w = 0x2 then .ok (.andReg x y)
  else if nOf w = 0x3 then .ok (.xorReg x y)
  else if nOf w = 0x4 then .ok (.addReg x y)
  else if nOf w = 0x5 then .ok (.subReg x y)
  else if nOf w = 0x6 then .ok (.shr x y)
  else if nOf w = 0x7 then .ok (.subnReg x y)
  else if nOf w = 0xE then .ok (.shl x y)
  else .rejected .undefinedSelector8

/-- Family E selects on kk (R96). -/
def decodeE (w : Word) : Decoded :=
  if kkOf w = 0x9E then .ok (.skp (xOf w))
  else if kkOf w = 0xA1 then .ok (.sknp (xOf w))
  else .rejected .undefinedSelectorE

/-- Family F selects on kk (R96). -/
def decodeF (w : Word) : Decoded :=
  let x := xOf w
  if kkOf w = 0x07 then .ok (.ldVxDt x)
  else if kkOf w = 0x0A then .ok (.ldVxK x)
  else if kkOf w = 0x15 then .ok (.ldDtVx x)
  else if kkOf w = 0x18 then .ok (.ldStVx x)
  else if kkOf w = 0x1E then .ok (.addI x)
  else if kkOf w = 0x29 then .ok (.ldF x)
  else if kkOf w = 0x33 then .ok (.ldB x)
  else if kkOf w = 0x55 then .ok (.storeRegs x)
  else if kkOf w = 0x65 then .ok (.loadRegs x)
  else .rejected .undefinedSelectorF

/-- Dispatch by nibble, then by the family's selector (R95 to R98, R114). All sixteen families are recognised;
the last arm is family F. -/
def decodeWord (w : Word) : Decoded :=
  match (nibbleOf w).toNat with
  | 0x0 => decode0 w
  | 0x1 => .ok (.jp (addrOf w))
  | 0x2 => .ok (.call (addrOf w))
  | 0x3 => .ok (.seImm (xOf w) (kkOf w))
  | 0x4 => .ok (.sneImm (xOf w) (kkOf w))
  | 0x5 => .ok (.seReg (xOf w) (yOf w) (nOf w))
  | 0x6 => .ok (.ldImm (xOf w) (kkOf w))
  | 0x7 => .ok (.addImm (xOf w) (kkOf w))
  | 0x8 => decode8 w
  | 0x9 => .ok (.sneReg (xOf w) (yOf w) (nOf w))
  | 0xA => .ok (.ldI (addrOf w))
  | 0xB => .ok (.jpV0 (addrOf w))
  | 0xC => .ok (.rnd (xOf w) (kkOf w))
  | 0xD => .ok (.drw (xOf w) (yOf w) (nOf w))
  | 0xE => decodeE w
  | _ => decodeF w

/-- Decoding a byte stream: the first two bytes are the word, high byte first (R65, R90); the rest is handed
back. -/
def decodeBytes : List Byte → Decoded × List Byte
  | hi :: lo :: rest => (decodeWord (wordOfBytes hi lo), rest)
  | bytes => (.rejected .truncated, bytes)

/-- The instruction the decoder reads from an instruction of `nbits` bits numbered as spec/opcode_table.json
numbers them: the one word, laid out high byte first and handed to the byte decoder. -/
def decodeTableWord (nbits w : Nat) : Option Instr :=
  let word : Word := BitVec.ofNat 16 (w % 2 ^ nbits)
  match (decodeBytes [hiByte word, loByte word]).1 with
  | .ok i => some i
  | .rejected _ => none

/-! ### Encoding (R93, R100) -/

/-- Format A: family, addr. -/
def encA (family : Nib) (addr : Addr) : Word := family ++ addr
/-- Formats XK and XS: family, x, kk. -/
def encXK (family x : Nib) (kk : Byte) : Word := family ++ x ++ kk
/-- Formats XY and XYN: family, x, y, n. -/
def encXYN (family x y n : Nib) : Word := family ++ x ++ y ++ n

/-- The word of an instruction. -/
def encode : Instr → Word
  | .cls => 0x00E0
  | .ret => 0x00EE
  | .sys addr => encA 0x0 addr
  | .jp addr => encA 0x1 addr
  | .call addr => encA 0x2 addr
  | .seImm x kk => encXK 0x3 x kk
  | .sneImm x kk => encXK 0x4 x kk
  | .seReg x y n => encXYN 0x5 x y n
  | .ldImm x kk => encXK 0x6 x kk
  | .addImm x kk => encXK 0x7 x kk
  | .ldReg x y => encXYN 0x8 x y 0x0
  | .orReg x y => encXYN 0x8 x y 0x1
  | .andReg x y => encXYN 0x8 x y 0x2
  | .xorReg x y => encXYN 0x8 x y 0x3
  | .addReg x y => encXYN 0x8 x y 0x4
  | .subReg x y => encXYN 0x8 x y 0x5
  | .shr x y => encXYN 0x8 x y 0x6
  | .subnReg x y => encXYN 0x8 x y 0x7
  | .shl x y => encXYN 0x8 x y 0xE
  | .sneReg x y n => encXYN 0x9 x y n
  | .ldI addr => encA 0xA addr
  | .jpV0 addr => encA 0xB addr
  | .rnd x kk => encXK 0xC x kk
  | .drw x y n => encXYN 0xD x y n
  | .skp x => encXK 0xE x 0x9E
  | .sknp x => encXK 0xE x 0xA1
  | .ldVxDt x => encXK 0xF x 0x07
  | .ldVxK x => encXK 0xF x 0x0A
  | .ldDtVx x => encXK 0xF x 0x15
  | .ldStVx x => encXK 0xF x 0x18
  | .addI x => encXK 0xF x 0x1E
  | .ldF x => encXK 0xF x 0x29
  | .ldB x => encXK 0xF x 0x33
  | .storeRegs x => encXK 0xF x 0x55
  | .loadRegs x => encXK 0xF x 0x65

/-! ### The opcode map (R100), copied row by row -/

/-- An instruction's row of R100. -/
def Instr.row : Instr → OpcodeRow
  | .cls => ⟨"CLS", 0x00E0, 0xFFFF⟩
  | .ret => ⟨"RET", 0x00EE, 0xFFFF⟩
  | .sys _ => ⟨"SYS_addr", 0x0000, 0xF000⟩
  | .jp _ => ⟨"JP_addr", 0x1000, 0xF000⟩
  | .call _ => ⟨"CALL_addr", 0x2000, 0xF000⟩
  | .seImm _ _ => ⟨"SE_Vx__kk", 0x3000, 0xF000⟩
  | .sneImm _ _ => ⟨"SNE_Vx__kk", 0x4000, 0xF000⟩
  | .seReg _ _ _ => ⟨"SE_Vx__Vy", 0x5000, 0xF000⟩
  | .ldImm _ _ => ⟨"LD_Vx__kk", 0x6000, 0xF000⟩
  | .addImm _ _ => ⟨"ADD_Vx__kk", 0x7000, 0xF000⟩
  | .ldReg _ _ => ⟨"LD_Vx__Vy", 0x8000, 0xF00F⟩
  | .orReg _ _ => ⟨"OR_Vx__Vy", 0x8001, 0xF00F⟩
  | .andReg _ _ => ⟨"AND_Vx__Vy", 0x8002, 0xF00F⟩
  | .xorReg _ _ => ⟨"XOR_Vx__Vy", 0x8003, 0xF00F⟩
  | .addReg _ _ => ⟨"ADD_Vx__Vy", 0x8004, 0xF00F⟩
  | .subReg _ _ => ⟨"SUB_Vx__Vy", 0x8005, 0xF00F⟩
  | .shr _ _ => ⟨"SHR_Vx____Vy", 0x8006, 0xF00F⟩
  | .subnReg _ _ => ⟨"SUBN_Vx__Vy", 0x8007, 0xF00F⟩
  | .shl _ _ => ⟨"SHL_Vx____Vy", 0x800E, 0xF00F⟩
  | .sneReg _ _ _ => ⟨"SNE_Vx__Vy", 0x9000, 0xF000⟩
  | .ldI _ => ⟨"LD_I__addr", 0xA000, 0xF000⟩
  | .jpV0 _ => ⟨"JP_V0__addr", 0xB000, 0xF000⟩
  | .rnd _ _ => ⟨"RND_Vx__kk", 0xC000, 0xF000⟩
  | .drw _ _ _ => ⟨"DRW_Vx__Vy__n", 0xD000, 0xF000⟩
  | .skp _ => ⟨"SKP_Vx", 0xE09E, 0xF0FF⟩
  | .sknp _ => ⟨"SKNP_Vx", 0xE0A1, 0xF0FF⟩
  | .ldVxDt _ => ⟨"LD_Vx__DT", 0xF007, 0xF0FF⟩
  | .ldVxK _ => ⟨"LD_Vx__K", 0xF00A, 0xF0FF⟩
  | .ldDtVx _ => ⟨"LD_DT__Vx", 0xF015, 0xF0FF⟩
  | .ldStVx _ => ⟨"LD_ST__Vx", 0xF018, 0xF0FF⟩
  | .addI _ => ⟨"ADD_I__Vx", 0xF01E, 0xF0FF⟩
  | .ldF _ => ⟨"LD_F__Vx", 0xF029, 0xF0FF⟩
  | .ldB _ => ⟨"LD_B__Vx", 0xF033, 0xF0FF⟩
  | .storeRegs _ => ⟨"LD__I___Vx", 0xF055, 0xF0FF⟩
  | .loadRegs _ => ⟨"LD_Vx___I", 0xF065, 0xF0FF⟩

/-- The 35 rows of R100 in its order. -/
def opcodeTable : List OpcodeRow :=
  [Instr.cls, .ret, .sys 0, .jp 0, .call 0, .seImm 0 0, .sneImm 0 0, .seReg 0 0 0, .ldImm 0 0, .addImm 0 0,
   .ldReg 0 0, .orReg 0 0, .andReg 0 0, .xorReg 0 0, .addReg 0 0, .subReg 0 0, .shr 0 0, .subnReg 0 0,
   .shl 0 0, .sneReg 0 0 0, .ldI 0, .jpV0 0, .rnd 0 0, .drw 0 0 0, .skp 0, .sknp 0, .ldVxDt 0, .ldVxK 0,
   .ldDtVx 0, .ldStVx 0, .addI 0, .ldF 0, .ldB 0, .storeRegs 0, .loadRegs 0].map Instr.row

end Sys2Proof
end

