-- ==== Sys2Proof/Machine/Flags.lean ====
section
/-! DEFINITION. Every flag computation of the hardware (spec/10_state.md R23). A flag is a Bool here; VF receives
it as exactly 0 or 1. -/

namespace Sys2Proof.Machine

/-- The byte a flag instruction writes to VF (R23). -/
def flagByte (b : Bool) : Byte := if b then 1 else 0

/-- Carry out of bit 7 of `vx + vy` (R159). -/
def carryOut (vx vy : Byte) : Bool := decide (vx.toNat + vy.toNat > 255)

/-- NOT borrow of `a - b` (R160, R162): 1 at equality (D17, log entry 22). -/
def notBorrow (a b : Byte) : Bool := decide (a.toNat ≥ b.toNat)

/-- The bit `8xy6` shifts out: bit 0 (R161). -/
def shiftedOutRight (src : Byte) : Bool := src.getLsbD 0

/-- The bit `8xyE` shifts out: bit 7 (R163). -/
def shiftedOutLeft (src : Byte) : Bool := src.getLsbD 7

/-- Overflow of the 12-bit index (R199; threshold D16, log entry 23). -/
def indexOverflow (sum : Nat) : Bool := decide (sum > 0xFFF)

end Sys2Proof.Machine
end

