-- ==== Sys2Proof/Config.lean ====
section
/-! DEFINITION. What an implementation fixes (spec/00_scope.md R6, R7; spec/10_state.md R34; spec/20_memory.md R62) and
the free values. The two OPEN flags and the random bytes are opaque constants: nothing in Lean can tell their values. -/

namespace Sys2Proof

/-- The configuration of one machine (R6, R34): fixed for a run, written by no instruction and no host operation.
It rides in `State` because the step has no other argument (log entry 1). -/
structure Config where
  /-- SHIFT_LEGACY: `8xy6` and `8xyE` shift Vy into Vx (true) or Vx in place (false), R6. -/
  shiftLegacy : Bool
  /-- INDEX_INCREMENT: `Fx55` and `Fx65` add x + 1 to I (true) or leave I (false), R6. -/
  indexIncrement : Bool
  /-- FB_W, at least 1 (R6). -/
  fbW : Nat
  /-- FB_H, at least 1 (R6). -/
  fbH : Nat
  /-- FONT, the 80 bytes that `Memory.clear()` installs at 0x000 to 0x04F (R6, R62, R70). -/
  font : Vector Byte 80
deriving DecidableEq, Repr

/-- The value of SHIFT_LEGACY in the machine at hand: OPEN in the spec (D18), so opaque here (log entry 1). -/
opaque Config.openShiftLegacy : Bool

/-- The value of INDEX_INCREMENT in the machine at hand: OPEN in the spec (D18), so opaque here (log entry 1). -/
opaque Config.openIndexIncrement : Bool

/-- `rand8()` of R172: the k-th byte drawn, a free value under no law (D19, log entry 6). -/
opaque Config.rand8 : Nat → Byte

/-- The default of FONT, the 80 glyph bytes of R62's table. PRESUMED: the spec supplies them from general knowledge
(D7, log entry 3). -/
def Config.defaultFontBytes : List Byte :=
  [0xF0, 0x90, 0x90, 0x90, 0xF0,  0x20, 0x60, 0x20, 0x20, 0x70,
   0xF0, 0x10, 0xF0, 0x80, 0xF0,  0xF0, 0x10, 0xF0, 0x10, 0xF0] ++
  [0x90, 0x90, 0xF0, 0x10, 0x10,  0xF0, 0x80, 0xF0, 0x10, 0xF0,
   0xF0, 0x80, 0xF0, 0x90, 0xF0,  0xF0, 0x10, 0x20, 0x40, 0x40] ++
  [0xF0, 0x90, 0xF0, 0x90, 0xF0,  0xF0, 0x90, 0xF0, 0x10, 0xF0,
   0xF0, 0x90, 0xF0, 0x90, 0x90,  0xE0, 0x90, 0xE0, 0x90, 0xE0] ++
  [0xF0, 0x80, 0x80, 0x80, 0xF0,  0xE0, 0x90, 0x90, 0x90, 0xE0,
   0xF0, 0x80, 0xF0, 0x80, 0xF0,  0xF0, 0x80, 0xF0, 0x80, 0x80]

/-- The default of FONT as the configuration value it is. -/
def Config.defaultFont : Vector Byte 80 := ⟨⟨Config.defaultFontBytes⟩, rfl⟩

/-- The machine at hand: OPEN flags, canonical 64 by 32 framebuffer, default font (R6; log entries 1, 2, 3). -/
def Config.atReset : Config :=
  { shiftLegacy := Config.openShiftLegacy, indexIncrement := Config.openIndexIncrement, fbW := 64, fbH := 32,
    font := Config.defaultFont }

/-- What a cell that nothing has written since `Memory.clear()` (or power-on) holds: the configured font at 0x000 to
0x04F, zero elsewhere (R70, R262; log entry 4). -/
def Config.initByte (cfg : Config) (a : Nat) : Byte := if h : a < 80 then cfg.font[a] else 0

end Sys2Proof
end

