-- ==== Sys2Proof/Machine/State.lean ====
section
/-! DEFINITION. Everything the spec gives the machine to hold (spec/10_state.md), as plain data, and the state
right after reset at power-on (spec/10_state.md R43, spec/70_reset_and_hazards.md R262). -/

namespace Sys2Proof.Machine

/-- FAULT_KIND (R31, R220). -/
inductive FaultKind where
  /-- 0: no fault. -/
  | none
  /-- 1: a `2nnn` with sixteen frames active (R221). -/
  | stackOverflow
  /-- 2: a `00EE` with no frame active (R222). -/
  | stackUnderflow
  /-- 3: a word with no handler (R223). -/
  | unknownOpcode
deriving DecidableEq, Repr

/-- The operations that can be performed on the block (R238), each atomic. The host's arguments ride in them. -/
inductive Action where
  /-- `step()` (R120). -/
  | step
  /-- `tick_timers()` (R231). -/
  | tickTimers
  /-- `Keypad.set_down(k, b)` (R39). -/
  | setDown (k : Nib) (b : Bool)
  /-- `resolve_key()` (R236); `ready` is the host's choice whether the debounced query may answer a key (R237,
  log entry 8). -/
  | resolveKey (ready : Bool)
  /-- `reset()` (R260). -/
  | reset
  /-- `Memory.clear()` (R70). -/
  | memClear
  /-- `Memory.load(bytes, base)` (R71). -/
  | memLoad (bytes : List Byte) (base : Nat)
  /-- `Framebuffer.clear()` (R37). -/
  | fbClear
deriving DecidableEq, Repr

/-- The run state (R33), a function of the flags: see `State.runState`. -/
inductive RunState where
  | running
  | awaitingKey (target : Nib)
  | faulted
deriving DecidableEq, Repr

/-- FB: rows of pixels, `FB[r][c]` is column c of row r (R35). -/
abbrev Grid := List (List Bool)

/-- MEM in canonical form: addresses rising, no byte equal to what its address reads as when unlisted
(`Config.initByte`, log entry 4). -/
abbrev Memory := List Host.Cell

structure State where
  /-- V0 to VF (R20). -/
  v : Vector Byte 16
  /-- I (R24). -/
  i : Word
  /-- PC (R25, R26). -/
  pc : Word
  /-- SP + 1, the number of active frames (R27, R28; log entry 5). -/
  depth : Fin 17
  /-- STACK[0] to STACK[15] (R27). -/
  stack : Vector Word 16
  /-- DT (R29). -/
  dt : Byte
  /-- ST (R29). -/
  st : Byte
  /-- WAIT (R30). -/
  wait : Bool
  /-- KEY_TARGET (R30). -/
  keyTarget : Nib
  /-- FAULT (R31). -/
  fault : Bool
  /-- FAULT_KIND (R31). -/
  faultKind : FaultKind
  /-- FAULT_WORD (R31). -/
  faultWord : Word
  /-- The configuration (R34), written by nothing (log entry 1). -/
  cfg : Config
  /-- MEM (R41). -/
  mem : Memory
  /-- FB (R35). -/
  fb : Grid
  /-- DOWN[0] to DOWN[15] (R38). -/
  down : Vector Bool 16
  /-- PREV[0] to PREV[15] (R38). -/
  prev : Vector Bool 16
  /-- HIST[0] to HIST[9], HIST[0] the newest (R40). -/
  hist : Vector Word 10
  /-- HIST_COUNT (R40). -/
  histCount : Fin 11
  /-- The model's own: how many random bytes have been drawn (R172, log entry 6). -/
  draws : Nat
  /-- The model's own: the operations the host has chosen to come next; when empty, the CPU steps (R240, log
  entry 7). -/
  schedule : List Action
deriving DecidableEq, Repr

/-- Reasons to stop with a fault. No instruction stops: the spec's three faults are taken as next states (R224). -/
inductive Fault where
  /-- The spec's abstract OutOfBounds condition. Raised by nobody: every address is reduced modulo 4096 before the
  access, which makes it unreachable (R63). Safe (log entry 31). -/
  | outOfBounds
deriving DecidableEq, Repr

/-- Reasons to refuse. Only host operations outside their contract are refused. -/
inductive Refusal where
  /-- Answered by an arm of `exec` whose instruction has no meaning yet; no arm does. Safe. -/
  | notModelled (mnemonic : String)
  /-- Raised by `Memory.load` when base + len > 4096 (R71). Safe (log entry 9). -/
  | loadPastEnd
  /-- Raised by `resolve_key()` while WAIT = 0 (R236, R238). Safe (log entry 8). -/
  | notAwaitingKey
deriving DecidableEq, Repr

/-- The machine at power-on, which is the machine right after reset with the cleared memory image, a dark
framebuffer and all keys up (R43, R262). Values the document gives no number for: log entries 1, 2, 6, 7, 11, 12. -/
def State.reset : State where
  v := Vector.replicate 16 0
  i := 0
  pc := 0x0200
  depth := 0
  stack := Vector.replicate 16 0
  dt := 0
  st := 0
  wait := false
  keyTarget := 0
  fault := false
  faultKind := .none
  faultWord := 0
  cfg := Config.atReset
  mem := []
  fb := List.replicate 32 (List.replicate 64 false)
  down := Vector.replicate 16 false
  prev := Vector.replicate 16 false
  hist := Vector.replicate 10 0
  histCount := 0
  draws := 0
  schedule := []

end Sys2Proof.Machine
end

