-- ==== Sys2Proof/Machine/Ops.lean ====
section
/-! DEFINITION. The named operations over memory, registers, stack, framebuffer, keypad, history and fault
registers that the meanings are written in (spec/10_state.md, spec/20_memory.md, spec/60_exceptions.md). -/

namespace Sys2Proof.Machine

/-! ### Memory (R60 to R71) -/

/-- The listed byte at a physical address, if any. -/
def Memory.find : Memory → Nat → Option Byte
  | [], _ => none
  | (a, b) :: m, k => if a = k then some b else Memory.find m k

/-- Lists a byte at an address, in rising order. -/
def Memory.insert (k : Nat) (b : Byte) : Memory → Memory
  | [] => [(k, b)]
  | (a, c) :: m =>
    if k < a then (k, b) :: (a, c) :: m
    else if k = a then (k, b) :: m
    else (a, c) :: Memory.insert k b m

/-- Lists nothing at an address. -/
def Memory.erase (k : Nat) : Memory → Memory
  | [] => []
  | (a, c) :: m => if a = k then Memory.erase k m else (a, c) :: Memory.erase k m

/-- `MemRead(addr, 1)`: the cell at addr mod 4096 (R63). -/
def Memory.read (cfg : Config) (m : Memory) (addr : Nat) : Byte :=
  match Memory.find m (addr % 4096) with
  | some b => b
  | none => cfg.initByte (addr % 4096)

/-- `MemWrite(addr, 1, b)`: the cell at addr mod 4096 (R64); the font cells too (R69). -/
def Memory.write (cfg : Config) (m : Memory) (addr : Nat) (b : Byte) : Memory :=
  let k := addr % 4096
  if b = cfg.initByte k then Memory.erase k m else Memory.insert k b m

/-- The canonical form from address lo on. -/
def Memory.wfFrom (cfg : Config) (lo : Nat) : Memory → Bool
  | [] => true
  | (a, b) :: m => decide (lo ≤ a) && decide (a < 4096) && decide (b ≠ cfg.initByte a) && Memory.wfFrom cfg (a + 1) m

/-- The canonical form: addresses strictly rising and below 4096, no byte equal to what an unlisted address reads
as (log entry 4). -/
def Memory.wf (cfg : Config) (m : Memory) : Bool := Memory.wfFrom cfg 0 m

/-- Copies bytes to consecutive cells (R71). -/
def Memory.store (cfg : Config) (m : Memory) (base : Nat) : List Byte → Memory
  | [] => m
  | b :: bs => Memory.store cfg (Memory.write cfg m base b) (base + 1) bs

def State.readByte (s : State) (addr : Nat) : Byte := Memory.read s.cfg s.mem addr

def State.writeByte (s : State) (addr : Nat) (b : Byte) : State := { s with mem := Memory.write s.cfg s.mem addr b }

/-- Instruction fetch, `MemRead(PC, 2)`: two byte reads, high byte first (R65, R112). -/
def State.fetchWord (s : State) : Word := wordOfBytes (s.readByte s.pc.toNat) (s.readByte (s.pc.toNat + 1))

/-! ### Registers (R20 to R26) -/

/-- A read of V[x] (R20, R21). -/
def State.getV (s : State) (x : Nib) : Byte := s.v[x.toNat]'x.isLt

/-- A write of V[x] (R21). -/
def State.setV (s : State) (x : Nib) (b : Byte) : State := { s with v := s.v.set x.toNat b x.isLt }

/-- The flag write to VF (R23). -/
def State.setVF (s : State) (f : Bool) : State := s.setV 0xF (flagByte f)

/-- The result write, then the flag write, which wins when x = F (R118, D12, log entry 16). -/
def State.setVFlag (s : State) (x : Nib) (b : Byte) (f : Bool) : State := (s.setV x b).setVF f

/-- `I <- n`, reduced modulo 4096 (R24). -/
def State.setI (s : State) (n : Nat) : State := { s with i := BitVec.ofNat 16 (n % 4096) }

/-- `PC <- a`: 16 bits, not masked to 12 (R26). -/
def State.setPc (s : State) (a : Word) : State := { s with pc := a }

/-- A sequential instruction's next PC (R115). -/
def State.advance (s : State) : State := s.setPc (s.pc + 2)

/-- A conditional skip's next PC (R115, R144). -/
def State.skipIf (s : State) (c : Bool) : State := s.setPc (if c then s.pc + 4 else s.pc + 2)

def State.setDt (s : State) (b : Byte) : State := { s with dt := b }

def State.setSt (s : State) (b : Byte) : State := { s with st := b }

/-! ### The call stack (R27, R28) -/

/-- SP as the snapshot shows it: -1 when empty (R28). -/
def State.sp (s : State) : Int := (s.depth.val : Int) - 1

/-- STACK[k]. -/
def State.stackAt (s : State) (k : Fin 16) : Word := s.stack[k.val]'k.isLt

/-- STACK[SP], the top valid entry while SP ≠ -1. -/
def State.topFrame (s : State) : Word := s.stack[s.depth.val - 1]'(by omega)

/-- SP <- SP - 1; the popped cell keeps its value (R28, R131). -/
def State.pop (s : State) : State := { s with depth := ⟨s.depth.val - 1, by omega⟩ }

/-- SP <- SP + 1 ; STACK[SP] <- a (R134). -/
def State.push (s : State) (a : Word) (h : s.depth.val < 16) : State :=
  { s with stack := s.stack.set s.depth.val a h, depth := ⟨s.depth.val + 1, by omega⟩ }

/-! ### The framebuffer (R35 to R37) -/

/-- FB[r][c]; a place outside the grid holds no pixel and answers off. -/
def Grid.pixel (g : Grid) (r c : Nat) : Bool := (g.getD r []).getD c false

/-- Toggles FB[r][c]. -/
def Grid.toggle (g : Grid) (r c : Nat) : Grid := g.modify r (fun row => row.modify c not)

/-- The grid has `FB_H` rows of `FB_W` pixels. -/
def Grid.shaped (g : Grid) (w h : Nat) : Bool := decide (g.length = h) && g.all (fun row => decide (row.length = w))

/-- An all-off grid (R37). -/
def Grid.dark (w h : Nat) : Grid := List.replicate h (List.replicate w false)

/-- `SetPixel(x, y)`: wraps, toggles, and reports the pixel's old value as the collision (R36). -/
def setPixel (cfg : Config) (g : Grid) (x y : Nat) : Grid × Bool :=
  let c := x % cfg.fbW
  let r := y % cfg.fbH
  (g.toggle r c, g.pixel r c)

/-- One sprite row's first `count` columns, column 0 (bit 7) first (R180, R182). -/
def plotCols (cfg : Config) (b : Byte) (x0 y : Nat) : (count : Nat) → Grid × Bool → Grid × Bool
  | 0, acc => acc
  | col + 1, acc =>
    let done := plotCols cfg b x0 y col acc
    if b.getLsbD (7 - col) then
      let r := setPixel cfg done.1 (x0 + col) y
      (r.1, done.2 || r.2)
    else done

/-- A sprite's first `count` rows, row 0 first; row k's byte is at base + k modulo 4096 (R180, R184). -/
def plotRows (cfg : Config) (m : Memory) (base x0 y0 : Nat) : (count : Nat) → Grid × Bool → Grid × Bool
  | 0, acc => acc
  | row + 1, acc =>
    plotCols cfg (Memory.read cfg m (base + row)) x0 (y0 + row) 8 (plotRows cfg m base x0 y0 row acc)

def State.pixel (s : State) (r c : Nat) : Bool := s.fb.pixel r c

def State.setFb (s : State) (g : Grid) : State := { s with fb := g }

/-- `Framebuffer.clear()` (R37). -/
def State.fbClear (s : State) : State := s.setFb (Grid.dark s.cfg.fbW s.cfg.fbH)

/-! ### The keypad (R38, R39) -/

/-- `is_down(k)` (R39). -/
def State.isDown (s : State) (k : Nib) : Bool := s.down[k.toNat]'k.isLt

/-- PREV[k]. -/
def State.wasDown (s : State) (k : Nib) : Bool := s.prev[k.toNat]'k.isLt

/-- `just_pressed(k)` (R39). -/
def State.justPressed (s : State) (k : Nib) : Bool := s.isDown k && !s.wasDown k

/-! ### The opcode history (R40) -/

/-- Records a fetched word: HIST shifts by one, the word becomes HIST[0], HIST_COUNT stops at 10 (R40, R113). -/
def State.recordHistory (s : State) (w : Word) : State :=
  { s with
    hist := #v[w, s.hist[0], s.hist[1], s.hist[2], s.hist[3], s.hist[4], s.hist[5], s.hist[6], s.hist[7], s.hist[8]]
    histCount := ⟨min (s.histCount.val + 1) 10, by omega⟩ }

/-! ### The random byte (R172) -/

/-- The next byte `rand8()` answers: a free value (log entry 6). -/
def State.nextRandom (s : State) : Byte := Config.rand8 s.draws

/-- The draw is used up. -/
def State.drawn (s : State) : State := { s with draws := s.draws + 1 }

/-! ### Taking a fault, waiting, and the way back (R30, R31, R224, R226, R260) -/

/-- The run state (R33). -/
def State.runState (s : State) : RunState :=
  if s.fault then .faulted else if s.wait then .awaitingKey s.keyTarget else .running

/-- The 2-bit code of FAULT_KIND (R220). -/
def FaultKind.code : FaultKind → BitVec 2
  | .none => 0
  | .stackOverflow => 1
  | .stackUnderflow => 2
  | .unknownOpcode => 3

/-- `raise <Kind>(W)`: taking a fault. FAULT, FAULT_KIND and FAULT_WORD are written and nothing else; PC stays on the
faulting instruction and control goes nowhere (R224). -/
def State.raise (s : State) (kind : FaultKind) (w : Word) : State :=
  { s with fault := true, faultKind := kind, faultWord := w }

/-- Entering AwaitingKey (R30, R196). -/
def State.awaitKey (s : State) (x : Nib) : State := { s with wait := true, keyTarget := x }

/-- `reset()`, the only way out of Faulted (R226): the CPU's state goes to its startup values; memory, framebuffer,
keypad and configuration stay (R260, R261). -/
def State.cpuReset (s : State) : State :=
  { s with
    v := Vector.replicate 16 0
    i := 0
    pc := 0x0200
    depth := 0
    stack := Vector.replicate 16 0
    dt := 0
    st := 0
    wait := false
    keyTarget := 0
    fault := false
    faultKind := .none
    faultWord := 0
    hist := Vector.replicate 10 0
    histCount := 0 }

end Sys2Proof.Machine
end

