-- ==== Sys2Proof/Machine/Operands.lean ====
section
/-! DEFINITION. Every operand form of the hardware (spec/30_encoding.md R94; spec/47_keyskip.md R192;
spec/48_family_f.md R200 to R203). A register operand is `State.getV`. -/

namespace Sys2Proof.Machine

/-- `zext_16(addr)` (R94). -/
def addrOperand (addr : Addr) : Word := addr.setWidth 16

/-- `zext_16(b)` for a byte (R171). -/
def byteOperand (b : Byte) : Word := b.setWidth 16

/-- I as a memory base and as an addend (R24). -/
def State.base (s : State) : Nat := s.i.toNat

/-- The low four bits of a register, as a key index (R192, D14) or a glyph index (R200, D15); log entry 18. -/
def lowNibble (b : Byte) : Nib := b.extractLsb' 0 4

/-- FONT_BASE + 5 * d (R62, R200). -/
def glyphAddr (d : Nib) : Nat := 0x000 + 5 * d.toNat

/-- The source of a shift: V[y] if SHIFT_LEGACY, else V[x] (R161, R163). -/
def State.shiftSource (s : State) (x y : Nib) : Byte := if s.cfg.shiftLegacy then s.getV y else s.getV x

/-- Hundreds, tens and ones of a byte (R201). -/
def bcdHundreds (b : Byte) : Byte := BitVec.ofNat 8 (b.toNat / 100)
def bcdTens (b : Byte) : Byte := BitVec.ofNat 8 (b.toNat / 10 % 10)
def bcdOnes (b : Byte) : Byte := BitVec.ofNat 8 (b.toNat % 10)

/-- V[0], ..., V[count - 1] stored at base, base + 1, ... in that order (R202). -/
def State.storeBlock (s : State) (base : Nat) : (count : Nat) → State
  | 0 => s
  | k + 1 => let t := State.storeBlock s base k; t.writeByte (base + k) (t.getV (BitVec.ofNat 4 k))

/-- V[0], ..., V[count - 1] loaded from base, base + 1, ... in that order (R203). -/
def State.loadBlock (s : State) (base : Nat) : (count : Nat) → State
  | 0 => s
  | k + 1 => let t := State.loadBlock s base k; t.setV (BitVec.ofNat 4 k) (t.readByte (base + k))

/-- After a block transfer of x + 1 bytes: I <- (base + x + 1) mod 4096 if INDEX_INCREMENT (R202, R203). -/
def State.blockIndex (s : State) (base : Nat) (x : Nib) : State :=
  if s.cfg.indexIncrement then s.setI (base + x.toNat + 1) else s

end Sys2Proof.Machine
end

