-- ==== Sys2Proof/Machine/Alu.lean ====
section
/-! DEFINITION. Families 6, 7 and 8: immediates and register ALU (spec/43_immediate.md R150, R151; spec/44_alu.md
R155 to R163, R165). Sources are read first, the result is written next, the flag last (R118). -/

namespace Sys2Proof.Machine

/-- LD Vx, kk (R150). -/
def execLdImm (x : Nib) (kk : Byte) (s : State) : Host.Outcome State Fault Refusal :=
  .next (s.setV x kk).advance

/-- ADD Vx, kk (R151): no flag. -/
def execAddImm (x : Nib) (kk : Byte) (s : State) : Host.Outcome State Fault Refusal :=
  .next (s.setV x (s.getV x + kk)).advance

/-- LD Vx, Vy (R155). -/
def execLdReg (x y : Nib) (s : State) : Host.Outcome State Fault Refusal :=
  .next (s.setV x (s.getV y)).advance

/-- OR Vx, Vy (R156): VF not written (D36, log entry 21). -/
def execOrReg (x y : Nib) (s : State) : Host.Outcome State Fault Refusal :=
  .next (s.setV x (s.getV x ||| s.getV y)).advance

/-- AND Vx, Vy (R157): VF not written (D36, log entry 21). -/
def execAndReg (x y : Nib) (s : State) : Host.Outcome State Fault Refusal :=
  .next (s.setV x (s.getV x &&& s.getV y)).advance

/-- XOR Vx, Vy (R158): VF not written (D36, log entry 21). -/
def execXorReg (x y : Nib) (s : State) : Host.Outcome State Fault Refusal :=
  .next (s.setV x (s.getV x ^^^ s.getV y)).advance

/-- ADD Vx, Vy (R159): VF = carry. -/
def execAddReg (x y : Nib) (s : State) : Host.Outcome State Fault Refusal :=
  .next (s.setVFlag x (s.getV x + s.getV y) (carryOut (s.getV x) (s.getV y))).advance

/-- SUB Vx, Vy (R160): VF = NOT borrow. -/
def execSubReg (x y : Nib) (s : State) : Host.Outcome State Fault Refusal :=
  .next (s.setVFlag x (s.getV x - s.getV y) (notBorrow (s.getV x) (s.getV y))).advance

/-- SHR Vx, Vy (R161): logical shift by one of V[y] (legacy) or V[x] (modern). -/
def execShr (x y : Nib) (s : State) : Host.Outcome State Fault Refusal :=
  .next (s.setVFlag x (s.shiftSource x y >>> 1) (shiftedOutRight (s.shiftSource x y))).advance

/-- SUBN Vx, Vy (R162): V[y] - V[x], VF = NOT borrow. -/
def execSubnReg (x y : Nib) (s : State) : Host.Outcome State Fault Refusal :=
  .next (s.setVFlag x (s.getV y - s.getV x) (notBorrow (s.getV y) (s.getV x))).advance

/-- SHL Vx, Vy (R163): shift by one of V[y] (legacy) or V[x] (modern). -/
def execShl (x y : Nib) (s : State) : Host.Outcome State Fault Refusal :=
  .next (s.setVFlag x (s.shiftSource x y <<< 1) (shiftedOutLeft (s.shiftSource x y))).advance

end Sys2Proof.Machine
end

