-- ==== Sys2Proof/Machine/Block.lean ====
section
/-! DEFINITION. Family F, memory: Fx33, Fx55, Fx65 (spec/48_family_f.md R201 to R203). -/

namespace Sys2Proof.Machine

/-- LD B, Vx (R201): hundreds, tens, ones at I, I + 1, I + 2; I is not changed. -/
def execLdB (x : Nib) (s : State) : Host.Outcome State Fault Refusal :=
  .next (((s.writeByte s.base (bcdHundreds (s.getV x))).writeByte (s.base + 1) (bcdTens (s.getV x))).writeByte
    (s.base + 2) (bcdOnes (s.getV x))).advance

/-- LD [I], Vx (R202): V0 to Vx stored from I on. -/
def execStoreRegs (x : Nib) (s : State) : Host.Outcome State Fault Refusal :=
  .next ((s.storeBlock s.base (x.toNat + 1)).blockIndex s.base x).advance

/-- LD Vx, [I] (R203): V0 to Vx loaded from I on. -/
def execLoadRegs (x : Nib) (s : State) : Host.Outcome State Fault Refusal :=
  .next ((s.loadBlock s.base (x.toNat + 1)).blockIndex s.base x).advance

end Sys2Proof.Machine
end

