-- ==== Sys2Proof/Machine/Draw.lean ====
section
/-! DEFINITION. Family D: sprite draw (spec/46_draw.md R180 to R184). -/

namespace Sys2Proof.Machine

/-- What the draw does to the framebuffer, and whether any toggle collided: V[x], V[y] and I are latched first
(R181, log entry 17). -/
def State.drawResult (s : State) (x y n : Nib) : Grid × Bool :=
  plotRows s.cfg s.mem s.base (s.getV x).toNat (s.getV y).toNat n.toNat (s.fb, false)

/-- DRW Vx, Vy, n (R180): pixels first, then VF = collision. -/
def execDrw (x y n : Nib) (s : State) : Host.Outcome State Fault Refusal :=
  .next ((s.setFb (s.drawResult x y n).1).setVF (s.drawResult x y n).2).advance

end Sys2Proof.Machine
end

