-- ==== Sys2Proof/Machine/Flow.lean ====
section
/-! DEFINITION. Families 0, 1, 2 and B: clear screen, return, the 0nnn space, jump, call, jump with offset
(spec/41_flow.md R130 to R134; spec/45_index_jump_random.md R171). -/

namespace Sys2Proof.Machine

/-- CLS (R130). -/
def execCls (s : State) : Host.Outcome State Fault Refusal := .next s.fbClear.advance

/-- RET (R131): the popped value is PC whole; StackUnderflow when no frame is active (R222). -/
def execRet (s : State) : Host.Outcome State Fault Refusal :=
  if s.depth.val = 0 then .next (s.raise .stackUnderflow (encode .ret))
  else .next (s.setPc s.topFrame).pop

/-- SYS addr (R132): no handler, so UnknownOpcode with the word itself (log entries 20, 30). -/
def execSys (addr : Addr) (s : State) : Host.Outcome State Fault Refusal :=
  .next (s.raise .unknownOpcode (encode (.sys addr)))

/-- JP addr (R133). -/
def execJp (addr : Addr) (s : State) : Host.Outcome State Fault Refusal := .next (s.setPc (addrOperand addr))

/-- CALL addr (R134): pushes PC + 2; StackOverflow with sixteen frames active (R221). -/
def execCall (addr : Addr) (s : State) : Host.Outcome State Fault Refusal :=
  if h : s.depth.val < 16 then .next ((s.push (s.pc + 2) h).setPc (addrOperand addr))
  else .next (s.raise .stackOverflow (encode (.call addr)))

/-- JP V0, addr (R171): the 16-bit sum, not masked to 12 bits. -/
def execJpV0 (addr : Addr) (s : State) : Host.Outcome State Fault Refusal :=
  .next (s.setPc (addrOperand addr + byteOperand (s.getV 0)))

end Sys2Proof.Machine
end

