-- ==== Sys2Proof/Machine/Index.lean ====
section
/-! DEFINITION. The index register and the random byte: Annn, Cxkk, Fx1E, Fx29 (spec/45_index_jump_random.md R170,
R172; spec/48_family_f.md R199, R200). -/

namespace Sys2Proof.Machine

/-- LD I, addr (R170). -/
def execLdI (addr : Addr) (s : State) : Host.Outcome State Fault Refusal := .next (s.setI addr.toNat).advance

/-- RND Vx, kk (R172): a free byte under the mask, the one place the generator is consulted (R9). -/
def execRnd (x : Nib) (kk : Byte) (s : State) : Host.Outcome State Fault Refusal :=
  .next (s.drawn.setV x (s.nextRandom &&& kk)).advance

/-- ADD I, Vx (R199): VF = overflow past 0xFFF, written last. -/
def execAddI (x : Nib) (s : State) : Host.Outcome State Fault Refusal :=
  .next ((s.setI (s.base + (s.getV x).toNat)).setVF (indexOverflow (s.base + (s.getV x).toNat))).advance

/-- LD F, Vx (R200): the glyph's address, low nibble of Vx; no memory is read. -/
def execLdF (x : Nib) (s : State) : Host.Outcome State Fault Refusal :=
  .next (s.setI (glyphAddr (lowNibble (s.getV x)))).advance

end Sys2Proof.Machine
end

