-- ==== Sys2Proof/Machine/Skip.lean ====
section
/-! DEFINITION. Families 3, 4, 5, 9 and E: conditional skips (spec/42_skip.md R140 to R144; spec/47_keyskip.md
R190 to R192). -/

namespace Sys2Proof.Machine

/-- SE Vx, kk (R140). -/
def execSeImm (x : Nib) (kk : Byte) (s : State) : Host.Outcome State Fault Refusal :=
  .next (s.skipIf (decide (s.getV x = kk)))

/-- SNE Vx, kk (R141). -/
def execSneImm (x : Nib) (kk : Byte) (s : State) : Host.Outcome State Fault Refusal :=
  .next (s.skipIf (decide (s.getV x ≠ kk)))

/-- SE Vx, Vy (R142); n is not examined (R98, log entry 19). -/
def execSeReg (x y : Nib) (s : State) : Host.Outcome State Fault Refusal :=
  .next (s.skipIf (decide (s.getV x = s.getV y)))

/-- SNE Vx, Vy (R143); n is not examined (R98, log entry 19). -/
def execSneReg (x y : Nib) (s : State) : Host.Outcome State Fault Refusal :=
  .next (s.skipIf (decide (s.getV x ≠ s.getV y)))

/-- SKP Vx (R190): the key is the low nibble of Vx (R192). -/
def execSkp (x : Nib) (s : State) : Host.Outcome State Fault Refusal :=
  .next (s.skipIf (s.isDown (lowNibble (s.getV x))))

/-- SKNP Vx (R191): the key is the low nibble of Vx (R192). -/
def execSknp (x : Nib) (s : State) : Host.Outcome State Fault Refusal :=
  .next (s.skipIf (!s.isDown (lowNibble (s.getV x))))

end Sys2Proof.Machine
end

