-- ==== Sys2Proof/Machine/Timers.lean ====
section
/-! DEFINITION. Family F, timers and the key wait: Fx07, Fx0A, Fx15, Fx18 (spec/48_family_f.md R195 to R198). -/

namespace Sys2Proof.Machine

/-- LD Vx, DT (R195). -/
def execLdVxDt (x : Nib) (s : State) : Host.Outcome State Fault Refusal := .next (s.setV x s.dt).advance

/-- LD Vx, K (R196): enters AwaitingKey; PC is not changed by the step. -/
def execLdVxK (x : Nib) (s : State) : Host.Outcome State Fault Refusal := .next (s.awaitKey x)

/-- LD DT, Vx (R197). -/
def execLdDtVx (x : Nib) (s : State) : Host.Outcome State Fault Refusal := .next (s.setDt (s.getV x)).advance

/-- LD ST, Vx (R198). -/
def execLdStVx (x : Nib) (s : State) : Host.Outcome State Fault Refusal := .next (s.setSt (s.getV x)).advance

end Sys2Proof.Machine
end

