-- ==== Sys2Proof/Machine/HostOps.lean ====
section
/-! DEFINITION. What the host does to the block (spec/60_exceptions.md R231, R236 to R239; spec/10_state.md R39;
spec/20_memory.md R70, R71). `reset()` is `State.cpuReset` and `Framebuffer.clear()` is `State.fbClear`. -/

namespace Sys2Proof.Machine

/-- A count-down with floor 0 (R231). -/
def countDown (b : Byte) : Byte := if b = 0 then 0 else b - 1

/-- `tick_timers()`: each timer on its own, in every run state (R231, log entry 27). -/
def State.tickTimers (s : State) : State := { s with dt := countDown s.dt, st := countDown s.st }

/-- `Keypad.set_down(k, b)`: DOWN[k] moves to PREV[k], then takes b (R39, log entry 29). -/
def State.setDown (s : State) (k : Nib) (b : Bool) : State :=
  { s with prev := s.prev.set k.toNat (s.isDown k) k.isLt, down := s.down.set k.toNat b k.isLt }

/-- The lowest key that is down, if any (R237). -/
def State.lowestDown (s : State) : Option Nib :=
  ((List.range 16).map (BitVec.ofNat 4)).find? s.isDown

/-- `poll_first_held_with_debounce()`: the lowest key down, or none; the host's choice `ready` stands for the
cooldown window (R237, D20, log entry 8). -/
def State.debouncedKey (s : State) (ready : Bool) : Option Nib := if ready then s.lowestDown else none

/-- `resolve_key()` (R236): refused while WAIT = 0; with a key, the three writes in one transition. -/
def State.resolveKey (s : State) (ready : Bool) : Host.Outcome State Fault Refusal :=
  if s.wait then
    match s.debouncedKey ready with
    | some k => .next { s.setV s.keyTarget (k.setWidth 8) with wait := false, pc := s.pc + 2 }
    | none => .next s
  else .refused .notAwaitingKey

/-- `Memory.clear()`: every cell back to the cleared image, the configured font included (R70). -/
def State.memClear (s : State) : State := { s with mem := [] }

/-- `Memory.load(bytes, base)`: refused past the end of memory (R71, log entry 9). -/
def State.memLoad (s : State) (bytes : List Byte) (base : Nat) : Host.Outcome State Fault Refusal :=
  if base + bytes.length ≤ 4096 then .next { s with mem := Memory.store s.cfg s.mem base bytes }
  else .refused .loadPastEnd

/-! ### Snapshots (R239) -/

/-- The read-only view of the block, WAIT and KEY_TARGET in it in every run state. -/
structure Snapshot where
  fbW : Nat
  fbH : Nat
  fb : Grid
  v : Vector Byte 16
  pc : Word
  i : Word
  dt : Byte
  st : Byte
  sp : Int
  stack : Vector Word 16
  fault : Bool
  faultKind : BitVec 2
  faultWord : Word
  /-- HIST[0] to HIST[HIST_COUNT - 1]. -/
  hist : List Word
  down : Vector Bool 16
  justPressed : List Bool
  runState : RunState
  wait : Bool
  keyTarget : Nib
deriving DecidableEq, Repr

/-- Reading the snapshot: a function of the state, so it has no side effect (R239). -/
def State.snapshot (s : State) : Snapshot where
  fbW := s.cfg.fbW
  fbH := s.cfg.fbH
  fb := s.fb
  v := s.v
  pc := s.pc
  i := s.i
  dt := s.dt
  st := s.st
  sp := s.sp
  stack := s.stack
  fault := s.fault
  faultKind := s.faultKind.code
  faultWord := s.faultWord
  hist := s.hist.toList.take s.histCount.val
  down := s.down
  justPressed := ((List.range 16).map (BitVec.ofNat 4)).map s.justPressed
  runState := s.runState
  wait := s.wait
  keyTarget := s.keyTarget

end Sys2Proof.Machine
end

