-- ==== Sys2Proof/Machine/Cycle.lean ====
section
/-! DEFINITION. The CPU's `step()` (spec/40_step_cycle.md R110 to R120), every operation of the interface
(spec/60_exceptions.md R238), and placing a word where the next fetch reads it. -/

namespace Sys2Proof.Machine

/-- What a running step does with the fetched word: the handler of its row, or UnknownOpcode (R114, R223). -/
def executeWord (w : Word) (s : State) : Host.Outcome State Fault Refusal :=
  match decodeWord w with
  | .ok i => exec i s
  | .rejected _ => .next (s.raise .unknownOpcode w)

/-- `step()`: fault gate, key-wait gate, fetch, history, decode and dispatch (R120). -/
def cycle (s : State) : Host.Outcome State Fault Refusal :=
  if s.fault then .next s
  else if s.wait then .next s
  else executeWord s.fetchWord (s.recordHistory s.fetchWord)

/-- One operation on the block (R238). -/
def perform (a : Action) (s : State) : Host.Outcome State Fault Refusal :=
  match a with
  | .step => cycle s
  | .tickTimers => .next s.tickTimers
  | .setDown k b => .next (s.setDown k b)
  | .resolveKey ready => s.resolveKey ready
  | .reset => .next s.cpuReset
  | .memClear => .next s.memClear
  | .memLoad bytes base => s.memLoad bytes base
  | .fbClear => .next s.fbClear

/-- `run(N)`: N consecutive steps, the gates evaluated at each (R117). -/
def State.runCycles : (n : Nat) → State → Host.Outcome State Fault Refusal
  | 0, s => .next s
  | n + 1, s =>
    match cycle s with
    | .next t => State.runCycles n t
    | .fault r => .fault r
    | .refused r => .refused r

/-- The operation that comes next: the first one scheduled, or the CPU's `step()` when none is (R240, log entry 7). -/
def State.nextAction (s : State) : Action :=
  match s.schedule with
  | [] => .step
  | a :: _ => a

/-- The scheduled operation is taken off the schedule as it is performed. -/
def State.turnTaken (s : State) : State := { s with schedule := s.schedule.tail }

/-- A word's two bytes stored at PC, the CPU running and no host operation before the step (log entry 10). -/
def State.placeWord (s : State) (w : Word) : State :=
  { (s.writeByte s.pc.toNat (hiByte w)).writeByte (s.pc.toNat + 1) (loByte w) with
    wait := false, fault := false, faultKind := .none, faultWord := 0, schedule := [] }

end Sys2Proof.Machine
end

