-- ==== Sys2Proof/Machine/Step.lean ====
section
/-! DEFINITION. One step of the whole block: the next operation the host has scheduled, or the CPU's `step()` when
none is (spec/00_scope.md R8; spec/60_exceptions.md R240; log entry 7). -/

namespace Sys2Proof.Machine

def step (s : State) : Host.Outcome State Fault Refusal := perform s.nextAction s.turnTaken

/-- The state whose next step fetches and runs the instruction of `nbits` bits `w` (log entry 10). -/
def State.withFetchWord (s : State) (nbits w : Nat) : State := s.placeWord (BitVec.ofNat 16 (w % 2 ^ nbits))

end Sys2Proof.Machine
end

