-- ==== Sys2Proof/Safety.lean ====
section
/-! DEFINITION. What counts as a good state and a good run, and the words the statements are written in: the
invariant, what a step leaves unchanged, who writes a register, the illegal words, the end of a run, what is assumed of a
host (spec/10_state.md R22, R24, R31, R32, R35; spec/30_encoding.md R99; spec/60_exceptions.md R232, R240, R245). -/

namespace Sys2Proof.Machine

/-! ### Invariants -/

/-- What holds in every reachable state: memory in canonical form, bits 15:12 of I clear (R24), a framebuffer of the
configured size, at least 1 by 1 (R6, R35), FAULT = 0 iff FAULT_KIND = 0 (R31) and then FAULT_WORD = 0 (R220), WAIT and
FAULT never both 1 (R32). The range of SP and of HIST_COUNT is in their types (R27, R40). -/
abbrev State.Inv (s : State) : Prop :=
  Memory.wf s.cfg s.mem = true ∧
  s.i.toNat < 4096 ∧
  1 ≤ s.cfg.fbW ∧ 1 ≤ s.cfg.fbH ∧
  Grid.shaped s.fb s.cfg.fbW s.cfg.fbH = true ∧
  (s.fault = false ↔ s.faultKind = .none) ∧
  (s.fault = false → s.faultWord = 0) ∧
  ¬(s.wait = true ∧ s.fault = true)

/-- A word that matches no handler (R99): what raises UnknownOpcode. -/
abbrev IllegalWord (w : Word) : Prop :=
  (nibbleOf w = 0x0 ∧ addrOf w ≠ 0x0E0 ∧ addrOf w ≠ 0x0EE) ∨
  (nibbleOf w = 0x8 ∧ nOf w ∈ ([0x8, 0x9, 0xA, 0xB, 0xC, 0xD, 0xF] : List Nib)) ∨
  (nibbleOf w = 0xE ∧ kkOf w ∉ ([0x9E, 0xA1] : List Byte)) ∨
  (nibbleOf w = 0xF ∧ kkOf w ∉ ([0x07, 0x0A, 0x15, 0x18, 0x1E, 0x29, 0x33, 0x55, 0x65] : List Byte))

/-- What the fault registers say is the condition of R220's table for that kind of fault, and the faulting word is
the newest history entry (R224). -/
abbrev State.FaultRecord (s : State) : Prop :=
  s.fault = true →
    (s.hist[0] = s.faultWord ∧ 1 ≤ s.histCount.val) ∧
    ((s.faultKind = .stackOverflow ∧ nibbleOf s.faultWord = 0x2 ∧ s.sp = 15) ∨
     (s.faultKind = .stackUnderflow ∧ s.faultWord = 0x00EE ∧ s.sp = -1) ∨
     (s.faultKind = .unknownOpcode ∧ IllegalWord s.faultWord))

/-! ### What a step leaves unchanged -/

/-- The parts of the state. -/
inductive Component where
  | regs | index | pc | depth | stack | dt | st | waiting | faulting | cfg | mem | fb | keypad | history | draws
  | schedule
deriving DecidableEq, Repr

/-- Two states agree on a part. Memory is compared by reading every address. -/
def Same : Component → State → State → Prop
  | .regs, s, t => ∀ r, t.getV r = s.getV r
  | .index, s, t => t.i = s.i
  | .pc, s, t => t.pc = s.pc
  | .depth, s, t => t.sp = s.sp
  | .stack, s, t => ∀ k, t.stackAt k = s.stackAt k
  | .dt, s, t => t.dt = s.dt
  | .st, s, t => t.st = s.st
  | .waiting, s, t => t.wait = s.wait ∧ t.keyTarget = s.keyTarget
  | .faulting, s, t => t.fault = s.fault ∧ t.faultKind = s.faultKind ∧ t.faultWord = s.faultWord
  | .cfg, s, t => t.cfg = s.cfg
  | .mem, s, t => ∀ a, t.readByte a = s.readByte a
  | .fb, s, t => t.fb = s.fb
  | .keypad, s, t => ∀ k, t.isDown k = s.isDown k ∧ t.wasDown k = s.wasDown k
  | .history, s, t => t.hist = s.hist ∧ t.histCount = s.histCount
  | .draws, s, t => t.draws = s.draws
  | .schedule, s, t => t.schedule = s.schedule

/-- Every part but the listed ones is unchanged. -/
def Unchanged (except : List Component) (s t : State) : Prop := ∀ c, c ∉ except → Same c s t

/-- Register x holds b and every other register is as before. -/
def OnlyReg (x : Nib) (b : Byte) (s t : State) : Prop := ∀ r, t.getV r = if r = x then b else s.getV r

/-- VF is the flag as a number, register x (unless it is VF) the result as a number, every other register is as
before: the flag is written last and wins when x = F (R118, D12, log entry 16). -/
def ResultThenFlag (x : Nib) (result flag : Nat) (s t : State) : Prop :=
  (x ≠ 0xF → (t.getV x).toNat = result) ∧ (t.getV 0xF).toNat = flag ∧ ∀ r, r ≠ x → r ≠ 0xF → t.getV r = s.getV r

/-- A fault was taken: the fault registers name it and nothing else changed (R224). -/
def TookFault (kind : FaultKind) (w : Word) (s t : State) : Prop :=
  t.fault = true ∧ t.faultKind = kind ∧ t.faultWord = w ∧ Unchanged [.faulting] s t

/-! ### Who writes what -/

/-- The next operation is a `step()` that executes i: nothing gates it and the word at PC decodes to i (R120). -/
def State.Executes (s : State) (i : Instr) : Prop :=
  s.nextAction = .step ∧ s.runState = .running ∧ decodeWord s.fetchWord = .ok i

/-- The writers of R22's table: whether an instruction may write register r, as its destination or as the flag VF. -/
def mayWrite (i : Instr) (r : Nib) : Bool :=
  match i with
  | .ldImm x _ | .addImm x _ | .ldReg x _ | .orReg x _ | .andReg x _ | .xorReg x _ | .rnd x _ | .ldVxDt x => r == x
  | .addReg x _ | .subReg x _ | .shr x _ | .subnReg x _ | .shl x _ => r == x || r == 0xF
  | .drw _ _ _ | .addI _ => r == 0xF
  | .loadRegs x => decide (r.toNat ≤ x.toNat)
  | .cls | .ret | .sys _ | .jp _ | .call _ | .seImm _ _ | .sneImm _ _ | .seReg _ _ _ | .sneReg _ _ _ | .ldI _ | .jpV0 _
  | .skp _ | .sknp _ | .ldVxK _ | .ldDtVx _ | .ldStVx _ | .ldF _ | .ldB _ | .storeRegs _ => false

/-! ### Sprites (R180 to R183) -/

/-- How many 1 bits of the sprite of `Dxyn` land on the pixel in row r, column c. -/
def State.spriteHits (s : State) (x y n : Nib) (r c : Nat) : Nat :=
  ((List.range n.toNat).map fun row =>
    ((List.range 8).filter fun col =>
      (s.readByte (s.base + row)).getLsbD (7 - col) &&
      decide (((s.getV x).toNat + col) % s.cfg.fbW = c ∧ ((s.getV y).toNat + row) % s.cfg.fbH = r)).length).sum

/-! ### Runs -/

/-- A run has gone wrong (R245). -/
abbrev State.GoneWrong (s : State) : Prop := s.fault = true

/-- A run has ended normally: PC, below 0x1000, holds the address of a jump to itself (R245, D30, log entry 35). -/
abbrev State.EndedNormally (s : State) : Prop :=
  s.runState = .running ∧ s.pc.toNat < 0x1000 ∧ decodeWord s.fetchWord = .ok (.jp (s.pc.setWidth 12))

/-- An unending run of the block under a host: operation `host k` is performed at moment k, a `step()` among them
(R238, R240). The machine's own steps from a schedule are its finite beginnings (log entry 36). -/
def IsRun (host : Nat → Action) (s : Nat → State) : Prop := ∀ k, perform (host k) (s k) = .next (s (k + 1))

/-- The fairness assumption on the tick (R232): the host issues ticks again and again (log entry 36). -/
def FairTicks (host : Nat → Action) : Prop := ∀ n, ∃ m, n ≤ m ∧ host m = .tickTimers

/-- CALLs to the listed addresses one after the other, each executed in the state the one before left. -/
def callAll : List Addr → State → Host.Outcome State Fault Refusal
  | [], s => .next s
  | a :: rest, s =>
    match exec (.call a) s with
    | .next t => callAll rest t
    | .fault r => .fault r
    | .refused r => .refused r

end Sys2Proof.Machine
end

