-- ==== Sys2Proof/Certificates/Slice0/Obligations.lean ====
section
/-! DEFINITION. The statements for the provers. A statement about `step` speaks of the operation that comes next,
`State.nextAction`: `.step` is the CPU's `step()`, also when nothing is scheduled. `Unchanged [..] s t` says that every
part of the state but the listed ones is as before. -/

open Sys2Proof Sys2Proof.Machine

/-! ### Encoding -/

/-- R92: the four nibbles of a word make it up again; kk and addr are made of them. -/
def Obligations.FieldsReassembleTheWord : Prop :=
  ∀ w : Word,
    (nibbleOf w).toNat * 0x1000 + (xOf w).toNat * 0x100 + (yOf w).toNat * 0x10 + (nOf w).toNat = w.toNat ∧
    (kkOf w).toNat = (yOf w).toNat * 0x10 + (nOf w).toNat ∧
    (addrOf w).toNat = (xOf w).toNat * 0x100 + (kkOf w).toNat

/-- Decoding the word of a well-formed instruction gives it back, for every instruction and every operand. The
selector values are the spec's, from general knowledge (log entry 25). -/
def Obligations.DecodeOfEncodeIsTheInstruction : Prop :=
  ∀ i : Instr, i.wf = true → decodeWord (encode i) = .ok i

/-- A word that decodes is the word of the well-formed instruction it decodes to: no bit is dropped (log entry 25). -/
def Obligations.EncodeOfDecodeIsTheWord : Prop :=
  ∀ (w : Word) (i : Instr), decodeWord w = .ok i → i.wf = true ∧ encode i = w

/-- The decoder agrees with the opcode map: a decoded word is of its instruction's row and of no other (but for CLS and
RET, which lie in SYS's row), and a word is rejected exactly when it is of no row. The map's values rest on general
knowledge (log entries 20, 25). -/
def Obligations.DecoderAgreesWithTheOpcodeMap : Prop :=
  ∀ w : Word,
    (∀ i, decodeWord w = .ok i → i.row ∈ opcodeTable ∧ w &&& i.row.mask = i.row.pattern ∧
      ∀ row ∈ opcodeTable, w &&& row.mask = row.pattern →
        row = i.row ∨ (row = (Instr.sys 0).row ∧ (i = .cls ∨ i = .ret))) ∧
    ((∃ r, decodeWord w = .rejected r) ↔ ∀ row ∈ opcodeTable, w &&& row.mask ≠ row.pattern)

/-- Words of all sixteen families, written out from the patterns of R100. The 0nnn word rests on the spec's decision D1
(log entry 20), the unexamined n on D2 (log entry 19), selector values on general knowledge where the spec says so (log
entry 25). -/
def Obligations.WordsOfTheSpecDecode : Prop :=
  decodeWord 0x00E0 = .ok .cls ∧ decodeWord 0x00EE = .ok .ret ∧ decodeWord 0x0123 = .ok (.sys 0x123) ∧
  decodeWord 0x1ABC = .ok (.jp 0xABC) ∧ decodeWord 0x2ABC = .ok (.call 0xABC) ∧
  decodeWord 0x332A = .ok (.seImm 0x3 0x2A) ∧ decodeWord 0x4342 = .ok (.sneImm 0x3 0x42) ∧
  decodeWord 0x5127 = .ok (.seReg 0x1 0x2 0x7) ∧ decodeWord 0x912F = .ok (.sneReg 0x1 0x2 0xF) ∧
  decodeWord 0x600A = .ok (.ldImm 0x0 0x0A) ∧ decodeWord 0x7202 = .ok (.addImm 0x2 0x02) ∧
  decodeWord 0x8014 = .ok (.addReg 0x0 0x1) ∧ decodeWord 0x8ABE = .ok (.shl 0xA 0xB) ∧
  decodeWord 0xA2F0 = .ok (.ldI 0x2F0) ∧ decodeWord 0xB300 = .ok (.jpV0 0x300) ∧
  decodeWord 0xC10F = .ok (.rnd 0x1 0x0F) ∧ decodeWord 0xD125 = .ok (.drw 0x1 0x2 0x5) ∧
  decodeWord 0xE29E = .ok (.skp 0x2) ∧ decodeWord 0xF30A = .ok (.ldVxK 0x3) ∧
  decodeWord 0xF255 = .ok (.storeRegs 0x2) ∧ decodeWord 0x8128 = .rejected .undefinedSelector8 ∧
  decodeWord 0xE19F = .rejected .undefinedSelectorE ∧ decodeWord 0xF130 = .rejected .undefinedSelectorF

/-! ### Memory, framebuffer, fetch -/

/-- A byte written is read back, at every address that is the same modulo 4096, and every other byte and every other
part of the state is as before; the wrap and the writable font are the spec's decisions D4 and D6 (log entries 13,
15). -/
def Obligations.ByteReadsBackAfterWrite : Prop :=
  ∀ (s : State) (a k : Nat) (b : Byte),
    (s.writeByte a b).readByte k = (if k % 4096 = a % 4096 then b else s.readByte k) ∧
    Unchanged [.mem] s (s.writeByte a b)

/-- The fetched word is `(MEM[PC mod 4096] << 8) | MEM[(PC + 1) mod 4096]` (20_memory.md; the wrap is the spec's decision
D4, log entry 13). -/
def Obligations.FetchIsBigEndian : Prop :=
  ∀ s : State,
    s.fetchWord.toNat =
      (s.readByte (s.pc.toNat % 4096)).toNat * 256 + (s.readByte ((s.pc.toNat + 1) % 4096)).toNat

/-- R36: SetPixel wraps, toggles that pixel only, reports its old value; a second call restores the grid and reports
the pixel between. -/
def Obligations.SetPixelTogglesAndReports : Prop :=
  ∀ (cfg : Config) (g : Grid) (x y : Nat),
    1 ≤ cfg.fbW → 1 ≤ cfg.fbH → Grid.shaped g cfg.fbW cfg.fbH = true →
    (setPixel cfg g x y).2 = g.pixel (y % cfg.fbH) (x % cfg.fbW) ∧
    (∀ r c, (setPixel cfg g x y).1.pixel r c =
      (if r = y % cfg.fbH ∧ c = x % cfg.fbW then !g.pixel r c else g.pixel r c)) ∧
    Grid.shaped (setPixel cfg g x y).1 cfg.fbW cfg.fbH = true ∧
    (setPixel cfg (setPixel cfg g x y).1 x y).1 = g ∧
    (setPixel cfg (setPixel cfg g x y).1 x y).2 = !g.pixel (y % cfg.fbH) (x % cfg.fbW)

/-! ### Reset and the invariants -/

/-- The state at power-on, every part the spec names: PC at 0x200, empty stack, Running, no fault, no history (R25, R27,
R43). The zeros the document gives no number for are the spec's decision D8 (log entry 11); the cleared memory image, the
dark framebuffer and the released keys its decision D25 (log entries 4, 12); 64 by 32 and the font's bytes are the defaults
of the configuration (log entries 2, 3). -/
def Obligations.PowerOnState : Prop :=
  State.reset.pc = 0x0200 ∧ State.reset.sp = -1 ∧ State.reset.runState = .running ∧
  State.reset.faultKind = .none ∧ State.reset.faultWord = 0 ∧ State.reset.keyTarget = 0 ∧
  (∀ r, State.reset.getV r = 0) ∧ State.reset.i = 0 ∧ (∀ k, State.reset.stackAt k = 0) ∧
  State.reset.dt = 0 ∧ State.reset.st = 0 ∧
  State.reset.histCount = 0 ∧ (∀ k : Fin 10, State.reset.hist[k] = 0) ∧
  State.reset.cfg.fbW = 64 ∧ State.reset.cfg.fbH = 32 ∧ Grid.shaped State.reset.fb 64 32 = true ∧
  State.reset.cfg.font = Config.defaultFont ∧
  (∀ a, a < 4096 → State.reset.readByte a = if h : a < 80 then Config.defaultFont[a] else 0) ∧
  (∀ r c, State.reset.pixel r c = false) ∧ (∀ k, State.reset.isDown k = false ∧ State.reset.wasDown k = false)

/-- `reset()` (R260, R261): from every state, the CPU's state goes to its startup values and memory, framebuffer, keypad
and configuration stay. The zeros the document gives no number for are the spec's decision D8 (log entry 11), that the
keypad stays its decision D25 (log entry 12). -/
def Obligations.ResetRestoresTheCpuAndLeavesTheRest : Prop :=
  ∀ s : State, s.nextAction = .reset →
    ∃ t, step s = .next t ∧
      t.pc = 0x0200 ∧ t.sp = -1 ∧ t.runState = .running ∧ t.keyTarget = 0 ∧ t.faultKind = .none ∧ t.faultWord = 0 ∧
      (∀ r, t.getV r = 0) ∧ t.i = 0 ∧ (∀ k, t.stackAt k = 0) ∧ t.dt = 0 ∧ t.st = 0 ∧
      t.histCount = 0 ∧ (∀ k : Fin 10, t.hist[k] = 0) ∧
      Unchanged [.regs, .index, .pc, .depth, .stack, .dt, .st, .waiting, .faulting, .history, .schedule] s t

/-- The reset state meets both invariants that every step keeps. -/
def Obligations.ResetMeetsTheInvariants : Prop := State.reset.Inv ∧ State.reset.FaultRecord

/-- Every step, of the CPU or of the host, keeps: memory in canonical form, I below 4096 (R24), the framebuffer's
dimensions (R35), FAULT = 0 iff FAULT_KIND = 0 (R31), WAIT and FAULT never both 1 (R32). -/
def Obligations.StepKeepsTheInvariant : Prop := ∀ s t : State, s.Inv → step s = .next t → t.Inv

/-- Every step keeps: while faulted, the fault registers say the condition that R220's table gives the kind of fault, and
the faulting word is the newest history entry (R224). -/
def Obligations.StepKeepsTheFaultRecord : Prop := ∀ s t : State, s.FaultRecord → step s = .next t → t.FaultRecord

/-! ### The step -/

/-- R110: while FAULT = 1, `step()` changes no state at all; the fault gate comes before every other test. -/
def Obligations.FaultedStepChangesNothing : Prop :=
  ∀ s : State, s.nextAction = .step → s.fault = true →
    step s = .next s.turnTaken ∧ Unchanged [.schedule] s s.turnTaken ∧ (s.schedule = [] → s.turnTaken = s)

/-- While FAULT = 0 and WAIT = 1, `step()` changes no state at all (40_step_cycle.md, key-wait gate). -/
def Obligations.AwaitingStepChangesNothing : Prop :=
  ∀ s : State, s.nextAction = .step → s.fault = false → s.wait = true →
    step s = .next s.turnTaken ∧ Unchanged [.schedule] s s.turnTaken ∧ (s.schedule = [] → s.turnTaken = s)

/-- While Running, when the word at PC decodes to i, the step is i's effect on the state in which the word is recorded in
the history. -/
def Obligations.StepRunsTheDecodedInstruction : Prop :=
  ∀ (s : State) (i : Instr), s.nextAction = .step → s.fault = false → s.wait = false →
    decodeWord s.fetchWord = .ok i →
    step s = exec i (s.turnTaken.recordHistory s.fetchWord)

/-- While Running, a step raises UnknownOpcode exactly on the illegal words of 30_encoding.md's table, and then changes
nothing but the fault registers and the history; that nothing else changes is the spec's decision D11 (log entry 24), the
words rest on D1 to D3 (log entries 19, 20, 25). -/
def Obligations.IllegalWordsRaiseUnknownOpcode : Prop :=
  ∀ s : State, s.nextAction = .step → s.fault = false → s.wait = false → s.faultKind = .none →
    (IllegalWord s.fetchWord →
      ∃ t, step s = .next t ∧ TookFault .unknownOpcode s.fetchWord (s.turnTaken.recordHistory s.fetchWord) t) ∧
    (∀ t, step s = .next t → (t.faultKind = .unknownOpcode ↔ IllegalWord s.fetchWord))

/-- Every executing step records its word once, most recent first, ten kept (representation: D26, log entry 28). -/
def Obligations.ExecutingStepRecordsItsWord : Prop :=
  ∀ s t : State, s.nextAction = .step → s.fault = false → s.wait = false → step s = .next t →
    t.hist[0] = s.fetchWord ∧ (∀ k : Fin 9, t.hist[k.succ] = s.hist[k.castSucc]) ∧
    t.histCount.val = min (s.histCount.val + 1) 10

/-- No step ever answers a host fault, and a step is refused exactly when the host asks for a key-wait resolution while
WAIT = 0 or for a load past the end of memory: no instruction and no data stops the machine (D20, D24; log entries 8,
9, 31). -/
def Obligations.OnlyHostMisuseIsRefused : Prop :=
  ∀ s : State,
    (∀ f, step s ≠ .fault f) ∧
    (∀ r, step s = .refused r ↔
      ((∃ ready, s.nextAction = .resolveKey ready) ∧ s.wait = false ∧ r = .notAwaitingKey) ∨
      (∃ bytes base, s.nextAction = .memLoad bytes base ∧ 4096 < base + bytes.length ∧ r = .loadPastEnd))

/-- With nothing scheduled, k steps of the machine are `run(k)`, k consecutive calls of `step()` with the gates evaluated
at each (40_step_cycle.md R117's section). Under any host, the first k moments of a run are k steps of the machine from
the state in which the host's first k operations are scheduled (60_exceptions.md section 5; log entries 7, 36). -/
def Obligations.CoreRunIsRunOfCycles : Prop :=
  (∀ (k : Nat) (s : State), s.schedule = [] → Host.Core.run Sys2Proof.core k s = State.runCycles k s) ∧
  (∀ (host : Nat → Action) (s : Nat → State) (k : Nat), IsRun host s → (s 0).schedule = [] →
    Host.Core.run Sys2Proof.core k { s 0 with schedule := (List.range k).map host } = .next (s k))

/-! ### Families 0, 1, 2, B -/

/-- R37, R130: `00E0` and the host's Framebuffer.clear turn every pixel off and keep the dimensions; nothing else changes
but PC (for `00E0`). -/
def Obligations.ClearTurnsEveryPixelOff : Prop :=
  ∀ s : State,
    (∃ t, exec .cls s = .next t ∧ (∀ r c, t.pixel r c = false) ∧ Grid.shaped t.fb s.cfg.fbW s.cfg.fbH = true ∧
      t.pc = s.pc + 2 ∧ Unchanged [.fb, .pc] s t) ∧
    (s.nextAction = .fbClear →
      ∃ t, step s = .next t ∧ (∀ r c, t.pixel r c = false) ∧ Grid.shaped t.fb s.cfg.fbW s.cfg.fbH = true ∧
        Unchanged [.fb, .schedule] s t)

/-- RET pops the top frame into PC, all 16 bits, and leaves the popped cell; with an empty stack it raises StackUnderflow.
That the fault changes nothing else and that the cell is kept are the spec's decisions D11 and D9 (log entries 24, 5). -/
def Obligations.RetPopsOrUnderflows : Prop :=
  ∀ s : State,
    (∀ k : Fin 16, s.sp = k.val →
      ∃ t, exec .ret s = .next t ∧ t.pc = s.stackAt k ∧ t.sp = s.sp - 1 ∧ Unchanged [.pc, .depth] s t) ∧
    (s.sp = -1 → ∃ t, exec .ret s = .next t ∧ TookFault .stackUnderflow 0x00EE s t)

/-- SYS: a word of the 0nnn space raises UnknownOpcode with the word itself, and that is its whole effect (the spec's
decisions D1 and D11, log entries 20, 24). The terms SYS 0x0E0 and SYS 0x0EE are not well formed, no word decodes to them,
and that they do the same is the model's (log entry 30). -/
def Obligations.SysRaisesUnknownOpcode : Prop :=
  ∀ (s : State) (addr : Addr),
    ∃ t, exec (.sys addr) s = .next t ∧ t.faultWord.toNat = addr.toNat ∧ TookFault .unknownOpcode t.faultWord s t

/-- R133: `1nnn` is JP; it sets PC to the zero-extended address and changes nothing else. -/
def Obligations.JpSetsPc : Prop :=
  ∀ (s : State) (addr : Addr),
    decodeWord ((0x1 : Nib) ++ addr) = .ok (.jp addr) ∧
    ∃ t, exec (.jp addr) s = .next t ∧ t.pc.toNat = addr.toNat ∧ Unchanged [.pc] s t

/-- CALL pushes PC + 2 above the top frame and jumps; with sixteen frames active it raises StackOverflow with its own word
and changes nothing else (41_flow.md; the 16-bit PC is the spec's decision D5, log entry 14). -/
def Obligations.CallPushesOrOverflows : Prop :=
  ∀ (s : State) (addr : Addr),
    (s.sp ≠ 15 →
      ∃ (t : State) (k : Fin 16), exec (.call addr) s = .next t ∧ (k.val : Int) = s.sp + 1 ∧ t.sp = s.sp + 1 ∧
        t.stackAt k = s.pc + 2 ∧ (∀ j, j ≠ k → t.stackAt j = s.stackAt j) ∧ t.pc.toNat = addr.toNat ∧
        Unchanged [.pc, .depth, .stack] s t) ∧
    (s.sp = 15 →
      ∃ t, exec (.call addr) s = .next t ∧ t.faultWord.toNat = 0x2000 + addr.toNat ∧
        TookFault .stackOverflow t.faultWord s t)

/-- JP V0: PC becomes addr + V0, a 16-bit sum that is not masked to 12 bits (the spec's decision D5, log entry 14). -/
def Obligations.JpV0AddsTheOffset : Prop :=
  ∀ (s : State) (addr : Addr),
    ∃ t, exec (.jpV0 addr) s = .next t ∧ t.pc.toNat = addr.toNat + (s.getV 0).toNat ∧ Unchanged [.pc] s t

/-- R221: from an empty stack sixteen nested CALLs succeed, none raising a fault, and the seventeenth raises
StackOverflow, leaving PC, registers and stack as they were just before it; whenever sixteen frames are active a CALL
does so. -/
def Obligations.SeventeenthNestedCallOverflows : Prop :=
  (∀ (s : State) (targets : List Addr) (last : Addr), s.sp = -1 → s.fault = false → targets.length = 16 →
    ∃ t u, callAll targets s = .next t ∧ t.fault = false ∧ t.sp = 15 ∧
      exec (.call last) t = .next u ∧ TookFault .stackOverflow u.faultWord t u) ∧
  (∀ (s : State) (addr : Addr), s.sp = 15 →
    ∃ t, exec (.call addr) s = .next t ∧ TookFault .stackOverflow t.faultWord s t)

/-- After a CALL and then a RET that finds the stack as the CALL left it, PC is the address after the CALL and SP is as
before the CALL. -/
def Obligations.RetComesBackAfterCall : Prop :=
  ∀ (s t u : State) (addr : Addr), s.sp ≠ 15 → exec (.call addr) s = .next t →
    u.sp = t.sp → (∀ k, u.stackAt k = t.stackAt k) →
    ∃ w, exec .ret u = .next w ∧ w.pc = s.pc + 2 ∧ w.sp = s.sp

/-! ### Skips -/

/-- SE and SNE with an immediate: PC + 4 when the condition holds, else PC + 2, modulo 65536, and nothing else changes;
which condition is which is general knowledge in the spec (log entry 25). -/
def Obligations.ImmediateSkips : Prop :=
  ∀ (s : State) (x : Nib) (kk : Byte),
    (∃ t, exec (.seImm x kk) s = .next t ∧
      t.pc.toNat = (s.pc.toNat + if s.getV x = kk then 4 else 2) % 65536 ∧ Unchanged [.pc] s t) ∧
    (∃ t, exec (.sneImm x kk) s = .next t ∧
      t.pc.toNat = (s.pc.toNat + if s.getV x = kk then 2 else 4) % 65536 ∧ Unchanged [.pc] s t)

/-- SE and SNE with two registers, the same for every n, which is not examined (the spec's decision D2, log entry 19; SE's
condition is general knowledge, log entry 25). -/
def Obligations.RegisterSkips : Prop :=
  ∀ (s : State) (x y n : Nib),
    (∃ t, exec (.seReg x y n) s = .next t ∧
      t.pc.toNat = (s.pc.toNat + if s.getV x = s.getV y then 4 else 2) % 65536 ∧ Unchanged [.pc] s t) ∧
    (∃ t, exec (.sneReg x y n) s = .next t ∧
      t.pc.toNat = (s.pc.toNat + if s.getV x = s.getV y then 2 else 4) % 65536 ∧ Unchanged [.pc] s t)

/-- SKP and SKNP test the key named by the low four bits of V[x] (the spec's decision D14, log entry 18); exactly one of
them skips. -/
def Obligations.KeySkips : Prop :=
  ∀ (s : State) (x k : Nib), k.toNat = (s.getV x).toNat % 16 →
    (∃ t, exec (.skp x) s = .next t ∧
      t.pc.toNat = (s.pc.toNat + if s.isDown k = true then 4 else 2) % 65536 ∧ Unchanged [.pc] s t) ∧
    (∃ t, exec (.sknp x) s = .next t ∧
      t.pc.toNat = (s.pc.toNat + if s.isDown k = true then 2 else 4) % 65536 ∧ Unchanged [.pc] s t)

/-! ### Families 6, 7, 8 -/

/-- R150, R155: `6xkk` is LD Vx, kk; it and LD Vx, Vy write V[x] and no flag. -/
def Obligations.LoadImmediateAndCopyRegister : Prop :=
  ∀ (s : State) (x y : Nib) (kk : Byte),
    decodeWord ((0x6 : Nib) ++ x ++ kk) = .ok (.ldImm x kk) ∧
    (∃ t, exec (.ldImm x kk) s = .next t ∧ OnlyReg x kk s t ∧ t.pc = s.pc + 2 ∧ Unchanged [.regs, .pc] s t) ∧
    (∃ t, exec (.ldReg x y) s = .next t ∧ OnlyReg x (s.getV y) s t ∧ t.pc = s.pc + 2 ∧ Unchanged [.regs, .pc] s t)

/-- R151: `7xkk` is ADD Vx, kk; it wraps modulo 256 and writes no flag: VF changes only as the destination. -/
def Obligations.AddImmediateWrapsWithoutFlag : Prop :=
  ∀ (s : State) (x : Nib) (kk : Byte),
    decodeWord ((0x7 : Nib) ++ x ++ kk) = .ok (.addImm x kk) ∧
    ∃ t, exec (.addImm x kk) s = .next t ∧ (t.getV x).toNat = ((s.getV x).toNat + kk.toNat) % 256 ∧
      (∀ r, r ≠ x → t.getV r = s.getV r) ∧ t.pc = s.pc + 2 ∧ Unchanged [.regs, .pc] s t

/-- OR, AND, XOR bit by bit; every register but V[x] keeps its value, VF included (the spec's decision D36, log entry
21). -/
def Obligations.LogicOperations : Prop :=
  ∀ (s : State) (x y : Nib),
    (∃ t, exec (.orReg x y) s = .next t ∧
      (∀ j, (t.getV x).getLsbD j = ((s.getV x).getLsbD j || (s.getV y).getLsbD j)) ∧
      (∀ r, r ≠ x → t.getV r = s.getV r) ∧ t.pc = s.pc + 2 ∧ Unchanged [.regs, .pc] s t) ∧
    (∃ t, exec (.andReg x y) s = .next t ∧
      (∀ j, (t.getV x).getLsbD j = ((s.getV x).getLsbD j && (s.getV y).getLsbD j)) ∧
      (∀ r, r ≠ x → t.getV r = s.getV r) ∧ t.pc = s.pc + 2 ∧ Unchanged [.regs, .pc] s t) ∧
    (∃ t, exec (.xorReg x y) s = .next t ∧
      (∀ j, (t.getV x).getLsbD j = ((s.getV x).getLsbD j ^^ (s.getV y).getLsbD j)) ∧
      (∀ r, r ≠ x → t.getV r = s.getV r) ∧ t.pc = s.pc + 2 ∧ Unchanged [.regs, .pc] s t)

/-- ADD Vx, Vy: the sum modulo 256, then VF = carry. The flag winning when x = F is the spec's decision D12 (log entry
16). -/
def Obligations.AddWithCarryOut : Prop :=
  ∀ (s : State) (x y : Nib),
    ∃ t, exec (.addReg x y) s = .next t ∧
      ResultThenFlag x (((s.getV x).toNat + (s.getV y).toNat) % 256)
        (if (s.getV x).toNat + (s.getV y).toNat > 255 then 1 else 0) s t ∧
      t.pc = s.pc + 2 ∧ Unchanged [.regs, .pc] s t

/-- SUB and SUBN: the difference modulo 256, then VF = NOT borrow, 1 at equality (the spec's decisions D12 and D17, log
entries 16, 22; SUBN's flag is general knowledge there). -/
def Obligations.SubtractWithNotBorrow : Prop :=
  ∀ (s : State) (x y : Nib),
    (∃ t, exec (.subReg x y) s = .next t ∧
      ResultThenFlag x (((s.getV x).toNat + 256 - (s.getV y).toNat) % 256)
        (if (s.getV x).toNat ≥ (s.getV y).toNat then 1 else 0) s t ∧
      t.pc = s.pc + 2 ∧ Unchanged [.regs, .pc] s t) ∧
    (∃ t, exec (.subnReg x y) s = .next t ∧
      ResultThenFlag x (((s.getV y).toNat + 256 - (s.getV x).toNat) % 256)
        (if (s.getV y).toNat ≥ (s.getV x).toNat then 1 else 0) s t ∧
      t.pc = s.pc + 2 ∧ Unchanged [.regs, .pc] s t)

/-- SHR and SHL by one of V[y] under SHIFT_LEGACY and of V[x] otherwise, then VF = the bit shifted out (the spec's decision
D12, log entry 16; the configuration: log entry 1). -/
def Obligations.ShiftsFollowTheConfiguration : Prop :=
  ∀ (s : State) (x y : Nib) (src : Nat),
    src = (if s.cfg.shiftLegacy = true then (s.getV y).toNat else (s.getV x).toNat) →
    (∃ t, exec (.shr x y) s = .next t ∧ ResultThenFlag x (src / 2) (src % 2) s t ∧
      t.pc = s.pc + 2 ∧ Unchanged [.regs, .pc] s t) ∧
    (∃ t, exec (.shl x y) s = .next t ∧ ResultThenFlag x (src * 2 % 256) (src / 128) s t ∧
      t.pc = s.pc + 2 ∧ Unchanged [.regs, .pc] s t)

/-! ### Index register and random byte -/

/-- R170: `Annn` is LD I, addr. -/
def Obligations.LoadIndex : Prop :=
  ∀ (s : State) (addr : Addr),
    decodeWord ((0xA : Nib) ++ addr) = .ok (.ldI addr) ∧
    ∃ t, exec (.ldI addr) s = .next t ∧ t.i.toNat = addr.toNat ∧ t.pc = s.pc + 2 ∧ Unchanged [.index, .pc] s t

/-- ADD I, Vx: I modulo 4096, then VF = 1 exactly when the sum exceeds 0xFFF (the spec's decisions D12 and D16, log
entries 16, 23). -/
def Obligations.AddToIndexWithOverflow : Prop :=
  ∀ (s : State) (x : Nib),
    ∃ t, exec (.addI x) s = .next t ∧ t.i.toNat = (s.i.toNat + (s.getV x).toNat) % 4096 ∧
      (t.getV 0xF).toNat = (if s.i.toNat + (s.getV x).toNat > 0xFFF then 1 else 0) ∧
      (∀ r, r ≠ 0xF → t.getV r = s.getV r) ∧ t.pc = s.pc + 2 ∧ Unchanged [.regs, .index, .pc] s t

/-- LD F, Vx: I is five times the low four bits of V[x] (the spec's decision D15, log entry 18); no memory is read. -/
def Obligations.GlyphAddress : Prop :=
  ∀ (s : State) (x : Nib),
    ∃ t, exec (.ldF x) s = .next t ∧ t.i.toNat = 5 * ((s.getV x).toNat % 16) ∧ t.pc = s.pc + 2 ∧
      Unchanged [.index, .pc] s t

/-- RND: V[x] becomes a free byte under the mask, whatever the byte is, and the draw is used up (the spec's decision D19,
log entry 6); the bits of the result are among the mask's. -/
def Obligations.RandomByteUnderMask : Prop :=
  ∀ (s : State) (x : Nib) (kk : Byte),
    ∃ t, exec (.rnd x kk) s = .next t ∧ OnlyReg x (Config.rand8 s.draws &&& kk) s t ∧
      (∀ j, (t.getV x).getLsbD j = true → kk.getLsbD j = true) ∧ t.draws = s.draws + 1 ∧ t.pc = s.pc + 2 ∧
      Unchanged [.regs, .pc, .draws] s t

/-- Every instruction but RND is deterministic: its outcome does not depend on which byte of the random source comes next,
and RND's depends on the one byte it draws. No operation on the block but a step that executes RND consults the source
(00_scope.md section 5). The source as a sequence with the counter `draws` is the model's form of the free value (log
entry 6). -/
def Obligations.OnlyRndConsultsTheGenerator : Prop :=
  (∀ (i : Instr) (s t : State) (d : Nat), exec i s = .next t →
    ((∀ x kk, i ≠ .rnd x kk) → t.draws = s.draws ∧ exec i { s with draws := d } = .next { t with draws := d }) ∧
    ((∃ x kk, i = .rnd x kk) → Config.rand8 d = Config.rand8 s.draws →
      exec i { s with draws := d } = .next { t with draws := d + 1 })) ∧
  (∀ (s t : State) (d : Nat), step s = .next t →
    (t.draws = s.draws ∧ step { s with draws := d } = .next { t with draws := d }) ∨
    ∃ x kk, s.Executes (.rnd x kk))

/-! ### Draw -/

/-- DRW: for every framebuffer size, each pixel is toggled once for every 1 bit of the sprite that lands on it, each
coordinate wrapped separately, and VF becomes 1 exactly when some pixel went from on to off; V[x], V[y] and I are the
values before the instruction. Bit 7 leftmost and the latching are the spec's decision D13 (log entry 17). -/
def Obligations.DrawTogglesAndReportsCollision : Prop :=
  ∀ (s : State) (x y n : Nib), 1 ≤ s.cfg.fbW → 1 ≤ s.cfg.fbH → Grid.shaped s.fb s.cfg.fbW s.cfg.fbH = true →
    ∃ t, exec (.drw x y n) s = .next t ∧
      (∀ r c, r < s.cfg.fbH → c < s.cfg.fbW →
        t.pixel r c = (s.pixel r c ^^ decide (s.spriteHits x y n r c % 2 = 1))) ∧
      Grid.shaped t.fb s.cfg.fbW s.cfg.fbH = true ∧
      ((t.getV 0xF = 1 ∧ ∃ r c, r < s.cfg.fbH ∧ c < s.cfg.fbW ∧
          2 ≤ s.spriteHits x y n r c + (if s.pixel r c = true then 1 else 0)) ∨
       (t.getV 0xF = 0 ∧ ∀ r c, r < s.cfg.fbH → c < s.cfg.fbW →
          s.spriteHits x y n r c + (if s.pixel r c = true then 1 else 0) ≤ 1)) ∧
      (∀ r, r ≠ 0xF → t.getV r = s.getV r) ∧ t.pc = s.pc + 2 ∧ Unchanged [.regs, .pc, .fb] s t

/-- Drawing the same sprite twice at the same place restores the framebuffer when no two of its 1 bits land on one pixel,
and the second draw's VF is 1 exactly when the first draw turned a pixel on. -/
def Obligations.DrawTwiceRestores : Prop :=
  ∀ (s t u : State) (x y n : Nib), 1 ≤ s.cfg.fbW → 1 ≤ s.cfg.fbH →
    Grid.shaped s.fb s.cfg.fbW s.cfg.fbH = true → x ≠ 0xF → y ≠ 0xF →
    (∀ r c, r < s.cfg.fbH → c < s.cfg.fbW → s.spriteHits x y n r c ≤ 1) →
    exec (.drw x y n) s = .next t → exec (.drw x y n) t = .next u →
    u.fb = s.fb ∧
    (u.getV 0xF = 1 ↔ ∃ r c, r < s.cfg.fbH ∧ c < s.cfg.fbW ∧ s.pixel r c = false ∧ t.pixel r c = true)

/-! ### Timers, key wait, memory transfers -/

/-- LD Vx, DT and LD DT, Vx and LD ST, Vx (48_family_f.md; their selectors are general knowledge, log entry 25). -/
def Obligations.TimerReadAndWrites : Prop :=
  ∀ (s : State) (x : Nib),
    (∃ t, exec (.ldVxDt x) s = .next t ∧ OnlyReg x s.dt s t ∧ t.pc = s.pc + 2 ∧ Unchanged [.regs, .pc] s t) ∧
    (∃ t, exec (.ldDtVx x) s = .next t ∧ t.dt = s.getV x ∧ t.pc = s.pc + 2 ∧ Unchanged [.dt, .pc] s t) ∧
    (∃ t, exec (.ldStVx x) s = .next t ∧ t.st = s.getV x ∧ t.pc = s.pc + 2 ∧ Unchanged [.st, .pc] s t)

/-- LD Vx, K enters AwaitingKey with target x, and changes nothing else, PC included. -/
def Obligations.KeyWaitSuspends : Prop :=
  ∀ (s : State) (x : Nib),
    ∃ t, exec (.ldVxK x) s = .next t ∧ t.wait = true ∧ t.keyTarget = x ∧ Unchanged [.waiting] s t

/-- LD B, Vx: hundreds, tens and ones at I, I + 1, I + 2 modulo 4096 (digit order: the spec's decision D32, log entry 26;
wrap and font: log entries 13, 15); every other byte and I are unchanged. -/
def Obligations.StoreDecimalDigits : Prop :=
  ∀ (s : State) (x : Nib),
    ∃ t, exec (.ldB x) s = .next t ∧
      (t.readByte s.base).toNat = (s.getV x).toNat / 100 ∧
      (t.readByte (s.base + 1)).toNat = (s.getV x).toNat / 10 % 10 ∧
      (t.readByte (s.base + 2)).toNat = (s.getV x).toNat % 10 ∧
      (∀ a, (∀ k, k < 3 → a % 4096 ≠ (s.base + k) % 4096) → t.readByte a = s.readByte a) ∧
      t.pc = s.pc + 2 ∧ Unchanged [.mem, .pc] s t

/-- LD [I], Vx: V0 to Vx at I, I + 1, ... modulo 4096 (range and order: the spec's decision D31, log entry 26; wrap and
font: log entries 13, 15); I moves on by x + 1 modulo 4096 exactly under INDEX_INCREMENT (log entry 1). -/
def Obligations.StoreRegisterBlock : Prop :=
  ∀ (s : State) (x : Nib),
    ∃ t, exec (.storeRegs x) s = .next t ∧
      (∀ k : Nib, k.toNat ≤ x.toNat → t.readByte (s.base + k.toNat) = s.getV k) ∧
      (∀ a, (∀ k, k ≤ x.toNat → a % 4096 ≠ (s.base + k) % 4096) → t.readByte a = s.readByte a) ∧
      t.i.toNat = (if s.cfg.indexIncrement = true then (s.base + x.toNat + 1) % 4096 else s.i.toNat) ∧
      t.pc = s.pc + 2 ∧ Unchanged [.mem, .index, .pc] s t

/-- LD Vx, [I]: V0 to Vx from I, I + 1, ... modulo 4096, the registers above Vx unchanged (D31, log entry 26; wrap: log
entry 13); I moves on by x + 1 modulo 4096 exactly under INDEX_INCREMENT (log entry 1). -/
def Obligations.LoadRegisterBlock : Prop :=
  ∀ (s : State) (x : Nib),
    ∃ t, exec (.loadRegs x) s = .next t ∧
      (∀ k : Nib, t.getV k = if k.toNat ≤ x.toNat then s.readByte (s.base + k.toNat) else s.getV k) ∧
      t.i.toNat = (if s.cfg.indexIncrement = true then (s.base + x.toNat + 1) % 4096 else s.i.toNat) ∧
      t.pc = s.pc + 2 ∧ Unchanged [.regs, .index, .pc] s t

/-- A store is seen by the very next fetch: after LD [I], Vx (x at least 1) with I at the next instruction, the next word
fetched is V0's byte, then V1's. -/
def Obligations.StoreIsSeenByTheNextFetch : Prop :=
  ∀ (s t : State) (x : Nib), 1 ≤ x.toNat → s.base = (s.pc.toNat + 2) % 4096 → exec (.storeRegs x) s = .next t →
    t.fetchWord = wordOfBytes (s.getV 0) (s.getV 1)

/-! ### The host's operations -/

/-- tick_timers(): each timer goes down by one, floor 0, in every run state (the spec's decision D23, log entry 27);
nothing else changes. Under a host that ticks again and again (R232's fairness assumption, log entry 36), a timer that is
written no more reaches 0 and stays there. -/
def Obligations.TickCountsBothTimersDown : Prop :=
  (∀ s : State, s.nextAction = .tickTimers →
    ∃ t, step s = .next t ∧ t.dt.toNat = s.dt.toNat - 1 ∧ t.st.toNat = s.st.toNat - 1 ∧
      Unchanged [.dt, .st, .schedule] s t) ∧
  (∀ (host : Nat → Action) (s : Nat → State) (n : Nat), IsRun host s → FairTicks host →
    ((∀ k, n ≤ k → host k = .step → (s k).runState = .running →
        ∀ x, decodeWord (s k).fetchWord ≠ .ok (.ldDtVx x)) →
      ∃ m, n ≤ m ∧ ∀ k, m ≤ k → (s k).dt = 0) ∧
    ((∀ k, n ≤ k → host k = .step → (s k).runState = .running →
        ∀ x, decodeWord (s k).fetchWord ≠ .ok (.ldStVx x)) →
      ∃ m, n ≤ m ∧ ∀ k, m ≤ k → (s k).st = 0))

/-- Keypad.set_down(k, b): DOWN[k] moves to PREV[k] and becomes b, every other key keeps both (the spec's decision D21, log
entry 29); k is just pressed exactly when it goes from up to down. -/
def Obligations.SetDownShiftsOneKey : Prop :=
  ∀ (s : State) (k : Nib) (b : Bool), s.nextAction = .setDown k b →
    ∃ t, step s = .next t ∧ t.isDown k = b ∧ t.wasDown k = s.isDown k ∧
      (∀ j, j ≠ k → t.isDown j = s.isDown j ∧ t.wasDown j = s.wasDown j) ∧
      (t.justPressed k = true ↔ b = true ∧ s.isDown k = false) ∧ Unchanged [.keypad, .schedule] s t

/-- resolve_key() while WAIT = 1: with the lowest key that is down, when the debounced query answers it, three writes at
once; with no answer, no change (the spec's decision D20, log entry 8). -/
def Obligations.ResolveKeyCompletesTheWait : Prop :=
  ∀ (s : State) (ready : Bool), s.nextAction = .resolveKey ready → s.wait = true →
    ((ready = false ∨ ∀ k, s.isDown k = false) → step s = .next s.turnTaken) ∧
    (∀ k : Nib, ready = true → s.isDown k = true → (∀ j : Nib, j.toNat < k.toNat → s.isDown j = false) →
      ∃ t, step s = .next t ∧ (t.getV s.keyTarget).toNat = k.toNat ∧
        (∀ r, r ≠ s.keyTarget → t.getV r = s.getV r) ∧ t.wait = false ∧ t.keyTarget = s.keyTarget ∧
        t.pc = s.pc + 2 ∧ Unchanged [.regs, .pc, .waiting, .schedule] s t)

/-- Memory.clear() zeroes every cell and installs FONT, whatever the configuration gives for it; nothing else changes
(20_memory.md section 4). -/
def Obligations.MemoryClearInstallsTheFont : Prop :=
  ∀ s : State, s.nextAction = .memClear →
    ∃ t, step s = .next t ∧ (∀ a, a < 4096 → t.readByte a = if h : a < 80 then s.cfg.font[a] else 0) ∧
      Unchanged [.mem, .schedule] s t

/-- Memory.load(bytes, base) copies the bytes from base on and leaves every other cell; a load past the end is refused
(the spec's decision D24, log entry 9). -/
def Obligations.MemoryLoadCopiesOrIsRefused : Prop :=
  ∀ (s : State) (bytes : List Byte) (base : Nat), s.nextAction = .memLoad bytes base →
    (base + bytes.length ≤ 4096 →
      ∃ t, step s = .next t ∧
        (∀ a, a < 4096 → t.readByte a =
          if base ≤ a ∧ a < base + bytes.length then bytes.getD (a - base) 0 else s.readByte a) ∧
        Unchanged [.mem, .schedule] s t) ∧
    (4096 < base + bytes.length → step s = .refused .loadPastEnd)

/-! ### Rules about the whole machine -/

/-- The run state changes only so: Running to AwaitingKey by Fx0A, AwaitingKey to Running by the key-wait resolution,
Running to Faulted by a step, any state to Running by reset (10_state.md section 7). -/
def Obligations.RunStateTransitions : Prop :=
  ∀ s t : State, step s = .next t → t.runState ≠ s.runState →
    (s.nextAction = .reset ∧ t.runState = .running) ∨
    (∃ x, s.runState = .running ∧ s.nextAction = .step ∧ decodeWord s.fetchWord = .ok (.ldVxK x) ∧
      t.runState = .awaitingKey x) ∨
    (∃ x, s.runState = .awaitingKey x ∧ s.nextAction = .resolveKey true ∧ t.runState = .running) ∨
    (s.runState = .running ∧ s.nextAction = .step ∧ t.runState = .faulted)

/-- Once faulted, only the host's reset clears FAULT, and until then the fault registers keep the first fault's values and
the CPU's registers, stack, PC and history stay: only the timers, memory, framebuffer, keypad can change, and by the host
(the WAIT = 1 excluded here never goes with FAULT = 1, by the invariant). -/
def Obligations.FaultedUntilReset : Prop :=
  ∀ s t : State, s.fault = true → s.wait = false → s.nextAction ≠ .reset → step s = .next t →
    Unchanged [.dt, .st, .mem, .fb, .keypad, .schedule] s t

/-- Who writes what, for every part of the state. Memory: Fx33, Fx55, Memory.clear, Memory.load. Framebuffer: 00E0, Dxyn,
Framebuffer.clear. Keypad: set_down. A timer: its own instruction, the tick, reset. Stack: 2nnn, 00EE, reset. I: Annn, Fx1E,
Fx29, Fx55, Fx65, reset. A register: the writers of R22's table, the key-wait resolution into KEY_TARGET, reset. PC: every
instruction but Fx0A and SYS, the resolution, reset. WAIT and KEY_TARGET: Fx0A, the resolution, reset. The fault registers:
00EE, 2nnn, an illegal word, reset. The history: a running step, reset. The configuration: nothing (10_state.md,
20_memory.md; the spec's decisions D18 and D36, log entries 1, 21). The model's own fields: draws by Cxkk only, the
schedule by having its first operation taken off (log entries 6, 7). -/
def Obligations.WritersOfEachPart : Prop :=
  ∀ s t : State, step s = .next t →
    (Same .mem s t ∨ s.nextAction = .memClear ∨ (∃ bytes base, s.nextAction = .memLoad bytes base) ∨
      ∃ x, s.Executes (.ldB x) ∨ s.Executes (.storeRegs x)) ∧
    (Same .fb s t ∨ s.nextAction = .fbClear ∨ s.Executes .cls ∨ ∃ x y n, s.Executes (.drw x y n)) ∧
    (Same .keypad s t ∨ ∃ k b, s.nextAction = .setDown k b) ∧
    (Same .dt s t ∨ s.nextAction = .tickTimers ∨ s.nextAction = .reset ∨ ∃ x, s.Executes (.ldDtVx x)) ∧
    (Same .st s t ∨ s.nextAction = .tickTimers ∨ s.nextAction = .reset ∨ ∃ x, s.Executes (.ldStVx x)) ∧
    Same .cfg s t ∧
    ((Same .stack s t ∧ Same .depth s t) ∨ s.nextAction = .reset ∨ s.Executes .ret ∨ ∃ a, s.Executes (.call a)) ∧
    (Same .index s t ∨ s.nextAction = .reset ∨ (∃ a, s.Executes (.ldI a)) ∨
      ∃ x, s.Executes (.addI x) ∨ s.Executes (.ldF x) ∨ s.Executes (.storeRegs x) ∨ s.Executes (.loadRegs x)) ∧
    (∀ r, t.getV r = s.getV r ∨ s.nextAction = .reset ∨
      ((∃ ready, s.nextAction = .resolveKey ready) ∧ r = s.keyTarget) ∨
      ∃ i, s.Executes i ∧ mayWrite i r = true) ∧
    (Same .pc s t ∨ s.nextAction = .reset ∨ (∃ ready, s.nextAction = .resolveKey ready) ∨
      ∃ i, s.Executes i ∧ (∀ x, i ≠ .ldVxK x) ∧ ∀ a, i ≠ .sys a) ∧
    (Same .waiting s t ∨ s.nextAction = .reset ∨ (∃ ready, s.nextAction = .resolveKey ready) ∨
      ∃ x, s.Executes (.ldVxK x)) ∧
    (Same .faulting s t ∨ s.nextAction = .reset ∨ s.Executes .ret ∨ (∃ a, s.Executes (.call a)) ∨
      (s.nextAction = .step ∧ s.runState = .running ∧ IllegalWord s.fetchWord)) ∧
    (Same .history s t ∨ s.nextAction = .reset ∨ (s.nextAction = .step ∧ s.runState = .running)) ∧
    (Same .draws s t ∨ ∃ x kk, s.Executes (.rnd x kk)) ∧
    t.schedule = s.schedule.tail

/-- No instruction reads ST, the opcode history, or the keypad's previous state: what an instruction does to everything
else does not depend on them (10_state.md sections 6, 10, 11). -/
def Obligations.SoundTimerHistoryAndPreviousKeysAreNotRead : Prop :=
  ∀ (i : Instr) (s t : State) (b : Byte) (h : Vector Word 10) (c : Fin 11) (p : Vector Bool 16),
    exec i s = .next t →
    exec i { s with st := b, hist := h, histCount := c, prev := p } =
      .next { t with st := (match i with | .ldStVx x => s.getV x | _ => b), hist := h, histCount := c, prev := p }

/-- A run that has ended normally, at a jump to itself, stays so under further steps of the CPU, which change nothing but
the history (the convention is the spec's decision D30, log entry 35). -/
def Obligations.EndedRunStaysEnded : Prop :=
  ∀ s : State, s.EndedNormally → s.nextAction = .step →
    ∃ t, step s = .next t ∧ t.EndedNormally ∧ Unchanged [.history, .schedule] s t
end

