-- ==== Sys2Proof/Laws/Decode.lean ====
section
/-! SUPPORT. The fields of a word that is put together from fields, and a word put together from its fields
(spec/30_encoding.md R91 to R93). -/

namespace Sys2Proof

/-! ### Words as numbers -/

theorem encA_toNat (f : Nib) (a : Addr) : (encA f a).toNat = f.toNat * 0x1000 + a.toNat := by
  have := a.isLt
  rw [encA, BitVec.toNat_append, ← Nat.shiftLeft_add_eq_or_of_lt (by simpa using this), Nat.shiftLeft_eq]

theorem encXK_toNat (f x : Nib) (kk : Byte) : (encXK f x kk).toNat = f.toNat * 0x1000 + x.toNat * 0x100 + kk.toNat := by
  have := kk.isLt
  have := x.isLt
  rw [encXK, BitVec.toNat_append, ← Nat.shiftLeft_add_eq_or_of_lt (by simpa using kk.isLt), Nat.shiftLeft_eq,
    BitVec.toNat_append, ← Nat.shiftLeft_add_eq_or_of_lt (by simpa using x.isLt), Nat.shiftLeft_eq]
  omega

theorem encXYN_toNat (f x y n : Nib) :
    (encXYN f x y n).toNat = f.toNat * 0x1000 + x.toNat * 0x100 + y.toNat * 0x10 + n.toNat := by
  have := n.isLt
  rw [encXYN, BitVec.toNat_append, ← Nat.shiftLeft_add_eq_or_of_lt (by simpa using n.isLt), Nat.shiftLeft_eq,
    BitVec.toNat_append, ← Nat.shiftLeft_add_eq_or_of_lt (by simpa using y.isLt), Nat.shiftLeft_eq,
    BitVec.toNat_append, ← Nat.shiftLeft_add_eq_or_of_lt (by simpa using x.isLt), Nat.shiftLeft_eq]
  omega

theorem wordOfBytes_toNat (hi lo : Byte) : (wordOfBytes hi lo).toNat = hi.toNat * 0x100 + lo.toNat := by
  rw [wordOfBytes, BitVec.toNat_append, ← Nat.shiftLeft_add_eq_or_of_lt (by simpa using lo.isLt), Nat.shiftLeft_eq]

/-! ### Fields as numbers -/

theorem nibbleOf_toNat (w : Word) : (nibbleOf w).toNat = w.toNat / 0x1000 := by
  have := w.isLt
  simp only [nibbleOf, BitVec.extractLsb'_toNat, Nat.shiftRight_eq_div_pow]
  omega
theorem xOf_toNat (w : Word) : (xOf w).toNat = w.toNat / 0x100 % 0x10 := by
  simp [xOf, BitVec.extractLsb'_toNat, Nat.shiftRight_eq_div_pow]
theorem yOf_toNat (w : Word) : (yOf w).toNat = w.toNat / 0x10 % 0x10 := by
  simp [yOf, BitVec.extractLsb'_toNat, Nat.shiftRight_eq_div_pow]
theorem nOf_toNat (w : Word) : (nOf w).toNat = w.toNat % 0x10 := by
  simp [nOf, BitVec.extractLsb'_toNat]
theorem kkOf_toNat (w : Word) : (kkOf w).toNat = w.toNat % 0x100 := by
  simp [kkOf, BitVec.extractLsb'_toNat]
theorem addrOf_toNat (w : Word) : (addrOf w).toNat = w.toNat % 0x1000 := by
  simp [addrOf, BitVec.extractLsb'_toNat]
theorem hiByte_toNat (w : Word) : (hiByte w).toNat = w.toNat / 0x100 := by
  have := w.isLt
  simp only [hiByte, BitVec.extractLsb'_toNat, Nat.shiftRight_eq_div_pow]
  omega
theorem loByte_toNat (w : Word) : (loByte w).toNat = w.toNat % 0x100 := by
  simp [loByte, BitVec.extractLsb'_toNat]

/-! ### The fields of a word put together -/

@[simp] theorem nibbleOf_encA (f : Nib) (a : Addr) : nibbleOf (encA f a) = f := by
  apply BitVec.eq_of_toNat_eq; rw [nibbleOf_toNat, encA_toNat]; have := a.isLt; omega
@[simp] theorem addrOf_encA (f : Nib) (a : Addr) : addrOf (encA f a) = a := by
  apply BitVec.eq_of_toNat_eq; rw [addrOf_toNat, encA_toNat]; have := a.isLt; omega
@[simp] theorem nibbleOf_encXK (f x : Nib) (kk : Byte) : nibbleOf (encXK f x kk) = f := by
  apply BitVec.eq_of_toNat_eq; rw [nibbleOf_toNat, encXK_toNat]; have := kk.isLt; have := x.isLt; omega
@[simp] theorem xOf_encXK (f x : Nib) (kk : Byte) : xOf (encXK f x kk) = x := by
  apply BitVec.eq_of_toNat_eq; rw [xOf_toNat, encXK_toNat]; have := kk.isLt; have := x.isLt; omega
@[simp] theorem kkOf_encXK (f x : Nib) (kk : Byte) : kkOf (encXK f x kk) = kk := by
  apply BitVec.eq_of_toNat_eq; rw [kkOf_toNat, encXK_toNat]; have := kk.isLt; omega
@[simp] theorem nibbleOf_encXYN (f x y n : Nib) : nibbleOf (encXYN f x y n) = f := by
  apply BitVec.eq_of_toNat_eq; rw [nibbleOf_toNat, encXYN_toNat]
  have := x.isLt; have := y.isLt; have := n.isLt; omega
@[simp] theorem xOf_encXYN (f x y n : Nib) : xOf (encXYN f x y n) = x := by
  apply BitVec.eq_of_toNat_eq; rw [xOf_toNat, encXYN_toNat]
  have := x.isLt; have := y.isLt; have := n.isLt; omega
@[simp] theorem yOf_encXYN (f x y n : Nib) : yOf (encXYN f x y n) = y := by
  apply BitVec.eq_of_toNat_eq; rw [yOf_toNat, encXYN_toNat]
  have := y.isLt; have := n.isLt; omega
@[simp] theorem nOf_encXYN (f x y n : Nib) : nOf (encXYN f x y n) = n := by
  apply BitVec.eq_of_toNat_eq; rw [nOf_toNat, encXYN_toNat]; have := n.isLt; omega
@[simp] theorem hiByte_wordOfBytes (hi lo : Byte) : hiByte (wordOfBytes hi lo) = hi := by
  apply BitVec.eq_of_toNat_eq; rw [hiByte_toNat, wordOfBytes_toNat]; have := lo.isLt; omega
@[simp] theorem loByte_wordOfBytes (hi lo : Byte) : loByte (wordOfBytes hi lo) = lo := by
  apply BitVec.eq_of_toNat_eq; rw [loByte_toNat, wordOfBytes_toNat]; have := lo.isLt; omega

/-! ### A word put together from its own fields -/

theorem encA_fields (w : Word) : encA (nibbleOf w) (addrOf w) = w := by
  apply BitVec.eq_of_toNat_eq; rw [encA_toNat, nibbleOf_toNat, addrOf_toNat]; omega
theorem encXK_fields (w : Word) : encXK (nibbleOf w) (xOf w) (kkOf w) = w := by
  apply BitVec.eq_of_toNat_eq; rw [encXK_toNat, nibbleOf_toNat, xOf_toNat, kkOf_toNat]; omega
theorem encXYN_fields (w : Word) : encXYN (nibbleOf w) (xOf w) (yOf w) (nOf w) = w := by
  apply BitVec.eq_of_toNat_eq; rw [encXYN_toNat, nibbleOf_toNat, xOf_toNat, yOf_toNat, nOf_toNat]; omega
@[simp] theorem wordOfBytes_halves (w : Word) : wordOfBytes (hiByte w) (loByte w) = w := by
  apply BitVec.eq_of_toNat_eq; rw [wordOfBytes_toNat, hiByte_toNat, loByte_toNat]; omega

/-! ### The masks of the opcode map keep whole fields -/

theorem and_F000 (w : Word) : w &&& 0xF000 = encA (nibbleOf w) 0 := by
  apply BitVec.eq_of_getLsbD_eq
  intro j hj
  simp only [encA, nibbleOf, BitVec.getLsbD_and, BitVec.getLsbD_append, BitVec.getLsbD_extractLsb']
  interval_cases j <;> simp
theorem and_F00F (w : Word) : w &&& 0xF00F = encXYN (nibbleOf w) 0 0 (nOf w) := by
  apply BitVec.eq_of_getLsbD_eq
  intro j hj
  simp only [encXYN, nibbleOf, nOf, BitVec.getLsbD_and, BitVec.getLsbD_append, BitVec.getLsbD_extractLsb']
  interval_cases j <;> simp
theorem and_F0FF (w : Word) : w &&& 0xF0FF = encXK (nibbleOf w) 0 (kkOf w) := by
  apply BitVec.eq_of_getLsbD_eq
  intro j hj
  simp only [encXK, nibbleOf, kkOf, BitVec.getLsbD_and, BitVec.getLsbD_append, BitVec.getLsbD_extractLsb']
  interval_cases j <;> simp
theorem and_FFFF (w : Word) : w &&& 0xFFFF = w := BitVec.and_allOnes

/-! ### The decoder, family by family (R95) -/

/-- A family is one of the sixteen nibbles. -/
theorem nib_cases (n : Nib) : n = 0x0 ∨ n = 0x1 ∨ n = 0x2 ∨ n = 0x3 ∨ n = 0x4 ∨ n = 0x5 ∨ n = 0x6 ∨ n = 0x7 ∨ n = 0x8 ∨
    n = 0x9 ∨ n = 0xA ∨ n = 0xB ∨ n = 0xC ∨ n = 0xD ∨ n = 0xE ∨ n = 0xF := by
  revert n; decide

theorem decodeWord_family0 {w : Word} (h : nibbleOf w = 0x0) : decodeWord w = decode0 w := by simp [decodeWord, h]
theorem decodeWord_family1 {w : Word} (h : nibbleOf w = 0x1) : decodeWord w = .ok (.jp (addrOf w)) := by simp [decodeWord, h]
theorem decodeWord_family2 {w : Word} (h : nibbleOf w = 0x2) : decodeWord w = .ok (.call (addrOf w)) := by simp [decodeWord, h]
theorem decodeWord_family3 {w : Word} (h : nibbleOf w = 0x3) : decodeWord w = .ok (.seImm (xOf w) (kkOf w)) := by simp [decodeWord, h]
theorem decodeWord_family4 {w : Word} (h : nibbleOf w = 0x4) : decodeWord w = .ok (.sneImm (xOf w) (kkOf w)) := by simp [decodeWord, h]
theorem decodeWord_family5 {w : Word} (h : nibbleOf w = 0x5) : decodeWord w = .ok (.seReg (xOf w) (yOf w) (nOf w)) := by simp [decodeWord, h]
theorem decodeWord_family6 {w : Word} (h : nibbleOf w = 0x6) : decodeWord w = .ok (.ldImm (xOf w) (kkOf w)) := by simp [decodeWord, h]
theorem decodeWord_family7 {w : Word} (h : nibbleOf w = 0x7) : decodeWord w = .ok (.addImm (xOf w) (kkOf w)) := by simp [decodeWord, h]
theorem decodeWord_family8 {w : Word} (h : nibbleOf w = 0x8) : decodeWord w = decode8 w := by simp [decodeWord, h]
theorem decodeWord_family9 {w : Word} (h : nibbleOf w = 0x9) : decodeWord w = .ok (.sneReg (xOf w) (yOf w) (nOf w)) := by simp [decodeWord, h]
theorem decodeWord_familyA {w : Word} (h : nibbleOf w = 0xA) : decodeWord w = .ok (.ldI (addrOf w)) := by simp [decodeWord, h]
theorem decodeWord_familyB {w : Word} (h : nibbleOf w = 0xB) : decodeWord w = .ok (.jpV0 (addrOf w)) := by simp [decodeWord, h]
theorem decodeWord_familyC {w : Word} (h : nibbleOf w = 0xC) : decodeWord w = .ok (.rnd (xOf w) (kkOf w)) := by simp [decodeWord, h]
theorem decodeWord_familyD {w : Word} (h : nibbleOf w = 0xD) : decodeWord w = .ok (.drw (xOf w) (yOf w) (nOf w)) := by simp [decodeWord, h]
theorem decodeWord_familyE {w : Word} (h : nibbleOf w = 0xE) : decodeWord w = decodeE w := by simp [decodeWord, h]
theorem decodeWord_familyF {w : Word} (h : nibbleOf w = 0xF) : decodeWord w = decodeF w := by simp [decodeWord, h]

/-- The byte decoder reads the table's word. -/
theorem decodeTableWord_eq (nbits w : Nat) :
    decodeTableWord nbits w =
      match decodeWord (BitVec.ofNat 16 (w % 2 ^ nbits)) with
      | .ok i => some i
      | .rejected _ => none := by
  cases h : decodeWord (BitVec.ofNat 16 (w % 2 ^ nbits)) <;>
    simp [decodeTableWord, decodeBytes, wordOfBytes_halves, h]

end Sys2Proof
end

