-- ==== Sys2Proof/Laws/Grid.lean ====
section
/-! SUPPORT. The laws of the framebuffer (spec/10_state.md R35 to R37): what a pixel is after a toggle, that a toggle keeps
the grid's shape and is its own inverse, and what drawing a sprite does pixel by pixel (spec/46_draw.md R180, R183). -/

namespace Sys2Proof.Machine

theorem Grid.shaped_iff (g : Grid) (w h : Nat) :
    Grid.shaped g w h = true ↔ g.length = h ∧ ∀ row ∈ g, row.length = w := by
  simp [Grid.shaped]

/-- Two grids of one shape with the same pixels are the same grid. -/
theorem Grid.ext_of_shaped {g g' : Grid} {w h : Nat} (s : Grid.shaped g w h = true) (s' : Grid.shaped g' w h = true)
    (e : ∀ r c, r < h → c < w → g.pixel r c = g'.pixel r c) : g = g' := by
  rw [Grid.shaped_iff] at s s'
  apply List.ext_getElem (s.1.trans s'.1.symm)
  intro r h1 h2
  have l1 := s.2 _ (List.getElem_mem h1)
  have l2 := s'.2 _ (List.getElem_mem h2)
  apply List.ext_getElem (l1.trans l2.symm)
  intro c c1 c2
  have := e r c (by omega) (by omega)
  simpa [Grid.pixel, List.getD_eq_getElem?_getD, List.getElem?_eq_getElem h1, List.getElem?_eq_getElem h2,
    List.getElem?_eq_getElem c1, List.getElem?_eq_getElem c2] using this

theorem Grid.shaped_toggle {g : Grid} {w h : Nat} (s : Grid.shaped g w h = true) (r c : Nat) :
    Grid.shaped (g.toggle r c) w h = true := by
  rw [Grid.shaped_iff] at s ⊢
  refine ⟨by simp [Grid.toggle, s.1], fun row hr => ?_⟩
  obtain ⟨k, hk, rfl⟩ := List.getElem_of_mem hr
  simp only [Grid.toggle, List.length_modify] at hk
  have := s.2 _ (List.getElem_mem hk)
  simp only [Grid.toggle, List.getElem_modify]
  split <;> simp [this]

/-- Inside the grid a toggle turns over its own pixel and no other. -/
theorem Grid.pixel_toggle {g : Grid} {w h : Nat} (s : Grid.shaped g w h = true) {r c : Nat} (hr : r < h) (hc : c < w)
    (r' c' : Nat) : (g.toggle r c).pixel r' c' = if r' = r ∧ c' = c then !g.pixel r' c' else g.pixel r' c' := by
  rw [Grid.shaped_iff] at s
  by_cases h1 : r' = r
  · subst h1
    have hl : r' < g.length := by omega
    have hw := s.2 _ (List.getElem_mem hl)
    by_cases h2 : c' = c
    · subst h2
      have hcl : c' < g[r'].length := by omega
      simp [Grid.pixel, Grid.toggle, List.getD_eq_getElem?_getD, hl, List.getElem?_eq_getElem hcl]
    · simp [Grid.pixel, Grid.toggle, List.getD_eq_getElem?_getD, hl, h2, Ne.symm h2]
  · simp [Grid.pixel, Grid.toggle, List.getD_eq_getElem?_getD, h1, Ne.symm h1]

theorem Grid.toggle_toggle {g : Grid} {w h : Nat} (s : Grid.shaped g w h = true) {r c : Nat} (hr : r < h) (hc : c < w) :
    (g.toggle r c).toggle r c = g := by
  refine Grid.ext_of_shaped (Grid.shaped_toggle (Grid.shaped_toggle s r c) r c) s fun r' c' _ _ => ?_
  rw [Grid.pixel_toggle (Grid.shaped_toggle s r c) hr hc, Grid.pixel_toggle s hr hc]
  split <;> simp

theorem Grid.pixel_dark (w h r c : Nat) : (Grid.dark w h).pixel r c = false := by
  simp only [Grid.pixel, Grid.dark, List.getD_eq_getElem?_getD, List.getElem?_replicate]
  split
  · simp only [Option.getD_some, List.getElem?_replicate]
    split <;> rfl
  · rfl

theorem Grid.shaped_dark (w h : Nat) : Grid.shaped (Grid.dark w h) w h = true := by
  rw [Grid.shaped_iff]
  refine ⟨by simp [Grid.dark], fun row hr => ?_⟩
  rw [Grid.dark, List.mem_replicate] at hr
  simp [hr.2]

/-! ### Drawing as a list of toggles -/

/-- Toggling a list of pixels (row, column) one after the other, with the collision so far. -/
def togglePixels : List (Nat × Nat) → Grid × Bool → Grid × Bool
  | [], acc => acc
  | p :: ps, acc => togglePixels ps (acc.1.toggle p.1 p.2, acc.2 || acc.1.pixel p.1 p.2)

theorem togglePixels_append (ps qs : List (Nat × Nat)) (acc : Grid × Bool) :
    togglePixels (ps ++ qs) acc = togglePixels qs (togglePixels ps acc) := by
  induction ps generalizing acc with
  | nil => rfl
  | cons p ps ih => exact ih _

/-- The pixels one sprite row toggles, in order. -/
def rowPixels (cfg : Config) (b : Byte) (x0 y count : Nat) : List (Nat × Nat) :=
  ((List.range count).filter fun col => b.getLsbD (7 - col)).map fun col => (y % cfg.fbH, (x0 + col) % cfg.fbW)

/-- The pixels a sprite toggles, in order. -/
def spritePixels (cfg : Config) (m : Memory) (base x0 y0 count : Nat) : List (Nat × Nat) :=
  (List.range count).flatMap fun row => rowPixels cfg (Memory.read cfg m (base + row)) x0 (y0 + row) 8

theorem plotCols_eq (cfg : Config) (b : Byte) (x0 y count : Nat) (acc : Grid × Bool) :
    plotCols cfg b x0 y count acc = togglePixels (rowPixels cfg b x0 y count) acc := by
  induction count with
  | zero => rfl
  | succ col ih =>
    simp only [plotCols, ih, rowPixels, List.range_succ, List.filter_append, List.map_append, togglePixels_append]
    cases h : b.getLsbD (7 - col) <;> simp [h, togglePixels, setPixel]

theorem plotRows_eq (cfg : Config) (m : Memory) (base x0 y0 count : Nat) (acc : Grid × Bool) :
    plotRows cfg m base x0 y0 count acc = togglePixels (spritePixels cfg m base x0 y0 count) acc := by
  induction count with
  | zero => rfl
  | succ row ih =>
    simp only [plotRows, ih, plotCols_eq, spritePixels, List.range_succ, List.flatMap_append, togglePixels_append,
      List.flatMap_cons, List.flatMap_nil, List.append_nil]

/-- Every toggled pixel of a sprite lies inside the grid (R183). -/
theorem spritePixels_inside {cfg : Config} (hw : 1 ≤ cfg.fbW) (hh : 1 ≤ cfg.fbH) {m : Memory}
    {base x0 y0 count : Nat} {p : Nat × Nat} (h : p ∈ spritePixels cfg m base x0 y0 count) :
    p.1 < cfg.fbH ∧ p.2 < cfg.fbW := by
  simp only [spritePixels, rowPixels, List.mem_flatMap, List.mem_map] at h
  obtain ⟨row, -, col, -, rfl⟩ := h
  exact ⟨Nat.mod_lt _ (by omega), Nat.mod_lt _ (by omega)⟩

theorem togglePixels_shaped {w h : Nat} (ps : List (Nat × Nat)) {acc : Grid × Bool}
    (s : Grid.shaped acc.1 w h = true) : Grid.shaped (togglePixels ps acc).1 w h = true := by
  induction ps generalizing acc with
  | nil => exact s
  | cons p ps ih => exact ih (Grid.shaped_toggle s p.1 p.2)

/-- A pixel is turned over once for every time it is listed. -/
theorem togglePixels_pixel {w h : Nat} (ps : List (Nat × Nat)) (inside : ∀ p ∈ ps, p.1 < h ∧ p.2 < w)
    {acc : Grid × Bool} (s : Grid.shaped acc.1 w h = true) (r c : Nat) :
    (togglePixels ps acc).1.pixel r c = (acc.1.pixel r c ^^ decide (ps.count (r, c) % 2 = 1)) := by
  induction ps generalizing acc with
  | nil => simp [togglePixels]
  | cons p ps ih =>
    obtain ⟨pr, pc⟩ := p
    have hp := inside (pr, pc) (by simp)
    rw [togglePixels, ih (fun q hq => inside q (by simp [hq])) (Grid.shaped_toggle s _ _),
      Grid.pixel_toggle s hp.1 hp.2, List.count_cons]
    by_cases e : (pr, pc) = (r, c)
    · obtain ⟨rfl, rfl⟩ := Prod.mk.inj e
      rcases Nat.mod_two_eq_zero_or_one (ps.count (pr, pc)) with q | q <;>
        simp [q, Nat.add_mod]
    · have e' : ¬(r = pr ∧ c = pc) := fun q => e (by rw [q.1, q.2])
      simp [e, e']

/-- No collision is reported exactly when none was before and no pixel is turned from on to off. -/
theorem togglePixels_noHit {w h : Nat} (ps : List (Nat × Nat)) (inside : ∀ p ∈ ps, p.1 < h ∧ p.2 < w)
    {acc : Grid × Bool} (s : Grid.shaped acc.1 w h = true) :
    (togglePixels ps acc).2 = false ↔
      acc.2 = false ∧ ∀ r c, r < h → c < w → ps.count (r, c) + (if acc.1.pixel r c = true then 1 else 0) ≤ 1 := by
  induction ps generalizing acc with
  | nil => simp only [togglePixels, List.count_nil]; refine ⟨fun e => ⟨e, fun r c _ _ => by split <;> omega⟩, And.left⟩
  | cons p ps ih =>
    obtain ⟨pr, pc⟩ := p
    have hp := inside (pr, pc) (by simp)
    rw [togglePixels, ih (fun q hq => inside q (by simp [hq])) (Grid.shaped_toggle s _ _)]
    simp only [Grid.pixel_toggle s hp.1 hp.2, List.count_cons, Bool.or_eq_false_iff, and_assoc]
    refine and_congr_right fun _ => ⟨fun ⟨hoff, hrest⟩ r c hr hc => ?_, fun hall => ⟨?_, fun r c hr hc => ?_⟩⟩
    · have := hrest r c hr hc
      by_cases e : (pr, pc) = (r, c)
      · obtain ⟨rfl, rfl⟩ := Prod.mk.inj e
        simp [hoff] at this ⊢
        exact this
      · have e' : ¬(r = pr ∧ c = pc) := fun q => e (by rw [q.1, q.2])
        simpa [e, e'] using this
    · have := hall pr pc hp.1 hp.2
      cases q : acc.1.pixel pr pc
      · rfl
      · simp [q] at this
    · have := hall r c hr hc
      by_cases e : (pr, pc) = (r, c)
      · obtain ⟨rfl, rfl⟩ := Prod.mk.inj e
        cases q : acc.1.pixel pr pc
        · simp [q] at this ⊢
          exact this
        · simp [q] at this
      · have e' : ¬(r = pr ∧ c = pc) := fun q => e (by rw [q.1, q.2])
        simpa [e, e'] using this

end Sys2Proof.Machine
end

