-- ==== Sys2Proof/Laws/Memory.lean ====
section
/-! SUPPORT. The laws of memory (spec/20_memory.md R63, R64): what a read answers after a write, and that every memory
operation keeps the canonical form. -/

namespace Sys2Proof.Machine

/-- In the font's range an unlisted address reads as the configured font (R62). -/
theorem initByte_font (cfg : Config) {a : Nat} (h : a < 80) : cfg.initByte a = cfg.font[a] := dif_pos h

/-- Above the font's range an unlisted address reads as zero (R70). -/
theorem initByte_zero (cfg : Config) {a : Nat} (h : 80 ≤ a) : cfg.initByte a = 0 := dif_neg (by omega)

/-- Nothing listed: the cleared image. -/
@[simp] theorem Memory.read_nil (cfg : Config) (a : Nat) : Memory.read cfg [] a = cfg.initByte (a % 4096) := rfl

theorem Memory.find_insert (m : Memory) (k j : Nat) (b : Byte) :
    Memory.find (Memory.insert k b m) j = if k = j then some b else Memory.find m j := by
  induction m with
  | nil => rfl
  | cons c m ih =>
    obtain ⟨a, c⟩ := c
    by_cases h1 : k < a
    · simp [Memory.insert, h1, Memory.find]
    · by_cases h2 : k = a
      · subst h2
        by_cases h3 : k = j <;> simp [Memory.insert, Memory.find, h3]
      · simp only [Memory.insert, h1, h2, if_false, Memory.find, ih]
        by_cases h3 : a = j
        · simp [h3, show k ≠ j from fun e => h2 (e.trans h3.symm)]
        · simp [h3]

theorem Memory.find_erase (m : Memory) (k j : Nat) :
    Memory.find (Memory.erase k m) j = if k = j then none else Memory.find m j := by
  induction m with
  | nil => simp [Memory.erase, Memory.find]
  | cons c m ih =>
    obtain ⟨a, c⟩ := c
    by_cases h1 : a = k
    · rw [Memory.erase, if_pos h1, ih, Memory.find]
      by_cases h2 : k = j
      · simp [h2]
      · simp [h2, h1]
    · rw [Memory.erase, if_neg h1, Memory.find, Memory.find, ih]
      by_cases h2 : a = j
      · rw [if_pos h2, if_pos h2, if_neg fun e : k = j => h1 (h2.trans e.symm)]
      · simp [h2]

/-- What a read answers after a write, at every pair of addresses. -/
theorem Memory.read_write {cfg : Config} (m : Memory) (a k : Nat) (b : Byte) :
    Memory.read cfg (Memory.write cfg m a b) k = if k % 4096 = a % 4096 then b else Memory.read cfg m k := by
  unfold Memory.read Memory.write
  by_cases h : b = cfg.initByte (a % 4096)
  · by_cases e : k % 4096 = a % 4096
    · rw [if_pos h, if_pos e, e, Memory.find_erase, if_pos rfl, h]
    · simp only [if_pos h, Memory.find_erase, if_neg e, if_neg fun q => e (Eq.symm q)]
  · by_cases e : k % 4096 = a % 4096
    · simp only [if_neg h, Memory.find_insert, if_pos e, if_pos e.symm]
    · simp only [if_neg h, Memory.find_insert, if_neg e, if_neg fun q => e (Eq.symm q)]

theorem Memory.read_mod {cfg : Config} (m : Memory) (a : Nat) : Memory.read cfg m (a % 4096) = Memory.read cfg m a := by
  simp [Memory.read]

/-! ### The canonical form -/

theorem Memory.wfFrom_mono {cfg : Config} {m : Memory} {lo lo' : Nat} (h : lo' ≤ lo) (w : Memory.wfFrom cfg lo m = true) :
    Memory.wfFrom cfg lo' m = true := by
  cases m with
  | nil => rfl
  | cons c m =>
    simp only [Memory.wfFrom, Bool.and_eq_true, decide_eq_true_eq] at w ⊢
    exact ⟨⟨⟨by omega, w.1.1.2⟩, w.1.2⟩, w.2⟩

theorem Memory.wfFrom_erase {cfg : Config} {m : Memory} {lo : Nat} (k : Nat) (w : Memory.wfFrom cfg lo m = true) :
    Memory.wfFrom cfg lo (Memory.erase k m) = true := by
  induction m generalizing lo with
  | nil => rfl
  | cons c m ih =>
    obtain ⟨a, c⟩ := c
    simp only [Memory.wfFrom, Bool.and_eq_true, decide_eq_true_eq] at w
    by_cases h : a = k
    · simp only [Memory.erase, if_pos h]
      exact Memory.wfFrom_mono (by omega) (ih w.2)
    · simp only [Memory.erase, if_neg h, Memory.wfFrom, Bool.and_eq_true, decide_eq_true_eq]
      exact ⟨w.1, ih w.2⟩

theorem Memory.wfFrom_insert {cfg : Config} {m : Memory} {lo k : Nat} {b : Byte} (w : Memory.wfFrom cfg lo m = true) (hlo : lo ≤ k)
    (hk : k < 4096) (hb : b ≠ cfg.initByte k) : Memory.wfFrom cfg lo (Memory.insert k b m) = true := by
  induction m generalizing lo with
  | nil => simp [Memory.insert, Memory.wfFrom, hlo, hk, hb]
  | cons c m ih =>
    obtain ⟨a, c⟩ := c
    simp only [Memory.wfFrom, Bool.and_eq_true, decide_eq_true_eq] at w
    by_cases h1 : k < a
    · simp only [Memory.insert, if_pos h1, Memory.wfFrom, Bool.and_eq_true, decide_eq_true_eq]
      exact ⟨⟨⟨hlo, hk⟩, hb⟩, ⟨⟨by omega, w.1.1.2⟩, w.1.2⟩, w.2⟩
    · by_cases h2 : k = a
      · subst h2
        simp only [Memory.insert, if_neg h1, if_true, Memory.wfFrom, Bool.and_eq_true, decide_eq_true_eq]
        exact ⟨⟨⟨hlo, hk⟩, hb⟩, w.2⟩
      · simp only [Memory.insert, if_neg h1, if_neg h2, Memory.wfFrom, Bool.and_eq_true, decide_eq_true_eq]
        exact ⟨w.1, ih w.2 (by omega)⟩

/-- A write keeps the canonical form. -/
theorem Memory.wf_write {cfg : Config} {m : Memory} (w : Memory.wf cfg m = true) (a : Nat) (b : Byte) :
    Memory.wf cfg (Memory.write cfg m a b) = true := by
  unfold Memory.write Memory.wf
  by_cases h : b = cfg.initByte (a % 4096)
  · simp only [if_pos h]
    exact Memory.wfFrom_erase _ w
  · simp only [if_neg h]
    exact Memory.wfFrom_insert w (Nat.zero_le _) (Nat.mod_lt _ (by decide)) h

/-- A load keeps the canonical form. -/
theorem Memory.wf_store {cfg : Config} {m : Memory} (w : Memory.wf cfg m = true) (base : Nat) (bytes : List Byte) :
    Memory.wf cfg (Memory.store cfg m base bytes) = true := by
  induction bytes generalizing m base with
  | nil => exact w
  | cons b bs ih => exact ih (Memory.wf_write w base b) (base + 1)

/-- The cleared image, which is the memory at power-on, has the canonical form. -/
theorem Memory.wf_cleared {cfg : Config} : Memory.wf cfg [] = true := rfl

/-- A copy of bytes changes no cell outside its range and puts each byte in its place, when it ends within memory. -/
theorem Memory.read_store {cfg : Config} (m : Memory) (base : Nat) (bytes : List Byte) (h : base + bytes.length ≤ 4096) (a : Nat)
    (ha : a < 4096) : Memory.read cfg (Memory.store cfg m base bytes) a =
      if base ≤ a ∧ a < base + bytes.length then bytes.getD (a - base) 0 else Memory.read cfg m a := by
  induction bytes generalizing m base with
  | nil => simp only [Memory.store, List.length_nil, Nat.add_zero]; rw [if_neg (by omega)]
  | cons b bs ih =>
    simp only [List.length_cons] at h ⊢
    simp only [Memory.store]
    rw [ih (Memory.write cfg m base b) (base + 1) (by omega), Memory.read_write,
      Nat.mod_eq_of_lt ha, Nat.mod_eq_of_lt (by omega : base < 4096)]
    by_cases e : a = base
    · subst e
      rw [if_neg (by omega), if_pos rfl, if_pos (by omega), Nat.sub_self]
      rfl
    · rw [if_neg e]
      by_cases q : base + 1 ≤ a ∧ a < base + 1 + bs.length
      · rw [if_pos q, if_pos (by omega), show a - base = (a - (base + 1)) + 1 by omega]
        rfl
      · rw [if_neg q, if_neg (by omega)]

end Sys2Proof.Machine
end

