-- ==== Sys2Proof/Laws/State.lean ====
section
/-! SUPPORT. One lemma per field (and per reader of a field) per update of the state, each true by unfolding, and what a
register read answers after a register write. Later proofs cite these and unfold no record. -/

namespace Sys2Proof.Machine

/-! ### setV -/

@[simp] theorem State.setV_v (s : State) (x : Nib) (b : Byte) : (s.setV x b).v = s.v.set x.toNat b x.isLt := rfl
@[simp] theorem State.setV_i (s : State) (x : Nib) (b : Byte) : (s.setV x b).i = s.i := rfl
@[simp] theorem State.setV_pc (s : State) (x : Nib) (b : Byte) : (s.setV x b).pc = s.pc := rfl
@[simp] theorem State.setV_depth (s : State) (x : Nib) (b : Byte) : (s.setV x b).depth = s.depth := rfl
@[simp] theorem State.setV_stack (s : State) (x : Nib) (b : Byte) : (s.setV x b).stack = s.stack := rfl
@[simp] theorem State.setV_dt (s : State) (x : Nib) (b : Byte) : (s.setV x b).dt = s.dt := rfl
@[simp] theorem State.setV_st (s : State) (x : Nib) (b : Byte) : (s.setV x b).st = s.st := rfl
@[simp] theorem State.setV_wait (s : State) (x : Nib) (b : Byte) : (s.setV x b).wait = s.wait := rfl
@[simp] theorem State.setV_keyTarget (s : State) (x : Nib) (b : Byte) : (s.setV x b).keyTarget = s.keyTarget := rfl
@[simp] theorem State.setV_fault (s : State) (x : Nib) (b : Byte) : (s.setV x b).fault = s.fault := rfl
@[simp] theorem State.setV_faultKind (s : State) (x : Nib) (b : Byte) : (s.setV x b).faultKind = s.faultKind := rfl
@[simp] theorem State.setV_faultWord (s : State) (x : Nib) (b : Byte) : (s.setV x b).faultWord = s.faultWord := rfl
@[simp] theorem State.setV_cfg (s : State) (x : Nib) (b : Byte) : (s.setV x b).cfg = s.cfg := rfl
@[simp] theorem State.setV_mem (s : State) (x : Nib) (b : Byte) : (s.setV x b).mem = s.mem := rfl
@[simp] theorem State.setV_fb (s : State) (x : Nib) (b : Byte) : (s.setV x b).fb = s.fb := rfl
@[simp] theorem State.setV_down (s : State) (x : Nib) (b : Byte) : (s.setV x b).down = s.down := rfl
@[simp] theorem State.setV_prev (s : State) (x : Nib) (b : Byte) : (s.setV x b).prev = s.prev := rfl
@[simp] theorem State.setV_hist (s : State) (x : Nib) (b : Byte) : (s.setV x b).hist = s.hist := rfl
@[simp] theorem State.setV_histCount (s : State) (x : Nib) (b : Byte) : (s.setV x b).histCount = s.histCount := rfl
@[simp] theorem State.setV_draws (s : State) (x : Nib) (b : Byte) : (s.setV x b).draws = s.draws := rfl
@[simp] theorem State.setV_schedule (s : State) (x : Nib) (b : Byte) : (s.setV x b).schedule = s.schedule := rfl
@[simp] theorem State.setV_readByte (s : State) (x : Nib) (b : Byte) (j : Nat) : (s.setV x b).readByte j = s.readByte j := rfl
@[simp] theorem State.setV_isDown (s : State) (x : Nib) (b : Byte) (j : Nib) : (s.setV x b).isDown j = s.isDown j := rfl
@[simp] theorem State.setV_wasDown (s : State) (x : Nib) (b : Byte) (j : Nib) : (s.setV x b).wasDown j = s.wasDown j := rfl
@[simp] theorem State.setV_stackAt (s : State) (x : Nib) (b : Byte) (j : Fin 16) : (s.setV x b).stackAt j = s.stackAt j := rfl
@[simp] theorem State.setV_pixel (s : State) (x : Nib) (b : Byte) (row col : Nat) : (s.setV x b).pixel row col = s.pixel row col := rfl
@[simp] theorem State.setV_base (s : State) (x : Nib) (b : Byte) : (s.setV x b).base = s.base := rfl
@[simp] theorem State.setV_sp (s : State) (x : Nib) (b : Byte) : (s.setV x b).sp = s.sp := rfl

/-! ### setVF -/

@[simp] theorem State.setVF_v (s : State) (f : Bool) : (s.setVF f).v = (s.setV 0xF (flagByte f)).v := rfl
@[simp] theorem State.setVF_i (s : State) (f : Bool) : (s.setVF f).i = s.i := rfl
@[simp] theorem State.setVF_pc (s : State) (f : Bool) : (s.setVF f).pc = s.pc := rfl
@[simp] theorem State.setVF_depth (s : State) (f : Bool) : (s.setVF f).depth = s.depth := rfl
@[simp] theorem State.setVF_stack (s : State) (f : Bool) : (s.setVF f).stack = s.stack := rfl
@[simp] theorem State.setVF_dt (s : State) (f : Bool) : (s.setVF f).dt = s.dt := rfl
@[simp] theorem State.setVF_st (s : State) (f : Bool) : (s.setVF f).st = s.st := rfl
@[simp] theorem State.setVF_wait (s : State) (f : Bool) : (s.setVF f).wait = s.wait := rfl
@[simp] theorem State.setVF_keyTarget (s : State) (f : Bool) : (s.setVF f).keyTarget = s.keyTarget := rfl
@[simp] theorem State.setVF_fault (s : State) (f : Bool) : (s.setVF f).fault = s.fault := rfl
@[simp] theorem State.setVF_faultKind (s : State) (f : Bool) : (s.setVF f).faultKind = s.faultKind := rfl
@[simp] theorem State.setVF_faultWord (s : State) (f : Bool) : (s.setVF f).faultWord = s.faultWord := rfl
@[simp] theorem State.setVF_cfg (s : State) (f : Bool) : (s.setVF f).cfg = s.cfg := rfl
@[simp] theorem State.setVF_mem (s : State) (f : Bool) : (s.setVF f).mem = s.mem := rfl
@[simp] theorem State.setVF_fb (s : State) (f : Bool) : (s.setVF f).fb = s.fb := rfl
@[simp] theorem State.setVF_down (s : State) (f : Bool) : (s.setVF f).down = s.down := rfl
@[simp] theorem State.setVF_prev (s : State) (f : Bool) : (s.setVF f).prev = s.prev := rfl
@[simp] theorem State.setVF_hist (s : State) (f : Bool) : (s.setVF f).hist = s.hist := rfl
@[simp] theorem State.setVF_histCount (s : State) (f : Bool) : (s.setVF f).histCount = s.histCount := rfl
@[simp] theorem State.setVF_draws (s : State) (f : Bool) : (s.setVF f).draws = s.draws := rfl
@[simp] theorem State.setVF_schedule (s : State) (f : Bool) : (s.setVF f).schedule = s.schedule := rfl
@[simp] theorem State.setVF_readByte (s : State) (f : Bool) (j : Nat) : (s.setVF f).readByte j = s.readByte j := rfl
@[simp] theorem State.setVF_isDown (s : State) (f : Bool) (j : Nib) : (s.setVF f).isDown j = s.isDown j := rfl
@[simp] theorem State.setVF_wasDown (s : State) (f : Bool) (j : Nib) : (s.setVF f).wasDown j = s.wasDown j := rfl
@[simp] theorem State.setVF_stackAt (s : State) (f : Bool) (j : Fin 16) : (s.setVF f).stackAt j = s.stackAt j := rfl
@[simp] theorem State.setVF_pixel (s : State) (f : Bool) (row col : Nat) : (s.setVF f).pixel row col = s.pixel row col := rfl
@[simp] theorem State.setVF_base (s : State) (f : Bool) : (s.setVF f).base = s.base := rfl
@[simp] theorem State.setVF_sp (s : State) (f : Bool) : (s.setVF f).sp = s.sp := rfl

/-! ### setI -/

@[simp] theorem State.setI_v (s : State) (n : Nat) : (s.setI n).v = s.v := rfl
@[simp] theorem State.setI_i (s : State) (n : Nat) : (s.setI n).i = BitVec.ofNat 16 (n % 4096) := rfl
@[simp] theorem State.setI_pc (s : State) (n : Nat) : (s.setI n).pc = s.pc := rfl
@[simp] theorem State.setI_depth (s : State) (n : Nat) : (s.setI n).depth = s.depth := rfl
@[simp] theorem State.setI_stack (s : State) (n : Nat) : (s.setI n).stack = s.stack := rfl
@[simp] theorem State.setI_dt (s : State) (n : Nat) : (s.setI n).dt = s.dt := rfl
@[simp] theorem State.setI_st (s : State) (n : Nat) : (s.setI n).st = s.st := rfl
@[simp] theorem State.setI_wait (s : State) (n : Nat) : (s.setI n).wait = s.wait := rfl
@[simp] theorem State.setI_keyTarget (s : State) (n : Nat) : (s.setI n).keyTarget = s.keyTarget := rfl
@[simp] theorem State.setI_fault (s : State) (n : Nat) : (s.setI n).fault = s.fault := rfl
@[simp] theorem State.setI_faultKind (s : State) (n : Nat) : (s.setI n).faultKind = s.faultKind := rfl
@[simp] theorem State.setI_faultWord (s : State) (n : Nat) : (s.setI n).faultWord = s.faultWord := rfl
@[simp] theorem State.setI_cfg (s : State) (n : Nat) : (s.setI n).cfg = s.cfg := rfl
@[simp] theorem State.setI_mem (s : State) (n : Nat) : (s.setI n).mem = s.mem := rfl
@[simp] theorem State.setI_fb (s : State) (n : Nat) : (s.setI n).fb = s.fb := rfl
@[simp] theorem State.setI_down (s : State) (n : Nat) : (s.setI n).down = s.down := rfl
@[simp] theorem State.setI_prev (s : State) (n : Nat) : (s.setI n).prev = s.prev := rfl
@[simp] theorem State.setI_hist (s : State) (n : Nat) : (s.setI n).hist = s.hist := rfl
@[simp] theorem State.setI_histCount (s : State) (n : Nat) : (s.setI n).histCount = s.histCount := rfl
@[simp] theorem State.setI_draws (s : State) (n : Nat) : (s.setI n).draws = s.draws := rfl
@[simp] theorem State.setI_schedule (s : State) (n : Nat) : (s.setI n).schedule = s.schedule := rfl
@[simp] theorem State.setI_getV (s : State) (n : Nat) (r : Nib) : (s.setI n).getV r = s.getV r := rfl
@[simp] theorem State.setI_readByte (s : State) (n : Nat) (j : Nat) : (s.setI n).readByte j = s.readByte j := rfl
@[simp] theorem State.setI_isDown (s : State) (n : Nat) (j : Nib) : (s.setI n).isDown j = s.isDown j := rfl
@[simp] theorem State.setI_wasDown (s : State) (n : Nat) (j : Nib) : (s.setI n).wasDown j = s.wasDown j := rfl
@[simp] theorem State.setI_stackAt (s : State) (n : Nat) (j : Fin 16) : (s.setI n).stackAt j = s.stackAt j := rfl
@[simp] theorem State.setI_pixel (s : State) (n : Nat) (row col : Nat) : (s.setI n).pixel row col = s.pixel row col := rfl
@[simp] theorem State.setI_sp (s : State) (n : Nat) : (s.setI n).sp = s.sp := rfl

/-! ### setPc -/

@[simp] theorem State.setPc_v (s : State) (a : Word) : (s.setPc a).v = s.v := rfl
@[simp] theorem State.setPc_i (s : State) (a : Word) : (s.setPc a).i = s.i := rfl
@[simp] theorem State.setPc_pc (s : State) (a : Word) : (s.setPc a).pc = a := rfl
@[simp] theorem State.setPc_depth (s : State) (a : Word) : (s.setPc a).depth = s.depth := rfl
@[simp] theorem State.setPc_stack (s : State) (a : Word) : (s.setPc a).stack = s.stack := rfl
@[simp] theorem State.setPc_dt (s : State) (a : Word) : (s.setPc a).dt = s.dt := rfl
@[simp] theorem State.setPc_st (s : State) (a : Word) : (s.setPc a).st = s.st := rfl
@[simp] theorem State.setPc_wait (s : State) (a : Word) : (s.setPc a).wait = s.wait := rfl
@[simp] theorem State.setPc_keyTarget (s : State) (a : Word) : (s.setPc a).keyTarget = s.keyTarget := rfl
@[simp] theorem State.setPc_fault (s : State) (a : Word) : (s.setPc a).fault = s.fault := rfl
@[simp] theorem State.setPc_faultKind (s : State) (a : Word) : (s.setPc a).faultKind = s.faultKind := rfl
@[simp] theorem State.setPc_faultWord (s : State) (a : Word) : (s.setPc a).faultWord = s.faultWord := rfl
@[simp] theorem State.setPc_cfg (s : State) (a : Word) : (s.setPc a).cfg = s.cfg := rfl
@[simp] theorem State.setPc_mem (s : State) (a : Word) : (s.setPc a).mem = s.mem := rfl
@[simp] theorem State.setPc_fb (s : State) (a : Word) : (s.setPc a).fb = s.fb := rfl
@[simp] theorem State.setPc_down (s : State) (a : Word) : (s.setPc a).down = s.down := rfl
@[simp] theorem State.setPc_prev (s : State) (a : Word) : (s.setPc a).prev = s.prev := rfl
@[simp] theorem State.setPc_hist (s : State) (a : Word) : (s.setPc a).hist = s.hist := rfl
@[simp] theorem State.setPc_histCount (s : State) (a : Word) : (s.setPc a).histCount = s.histCount := rfl
@[simp] theorem State.setPc_draws (s : State) (a : Word) : (s.setPc a).draws = s.draws := rfl
@[simp] theorem State.setPc_schedule (s : State) (a : Word) : (s.setPc a).schedule = s.schedule := rfl
@[simp] theorem State.setPc_getV (s : State) (a : Word) (r : Nib) : (s.setPc a).getV r = s.getV r := rfl
@[simp] theorem State.setPc_readByte (s : State) (a : Word) (j : Nat) : (s.setPc a).readByte j = s.readByte j := rfl
@[simp] theorem State.setPc_isDown (s : State) (a : Word) (j : Nib) : (s.setPc a).isDown j = s.isDown j := rfl
@[simp] theorem State.setPc_wasDown (s : State) (a : Word) (j : Nib) : (s.setPc a).wasDown j = s.wasDown j := rfl
@[simp] theorem State.setPc_stackAt (s : State) (a : Word) (j : Fin 16) : (s.setPc a).stackAt j = s.stackAt j := rfl
@[simp] theorem State.setPc_pixel (s : State) (a : Word) (row col : Nat) : (s.setPc a).pixel row col = s.pixel row col := rfl
@[simp] theorem State.setPc_base (s : State) (a : Word) : (s.setPc a).base = s.base := rfl
@[simp] theorem State.setPc_sp (s : State) (a : Word) : (s.setPc a).sp = s.sp := rfl

/-! ### advance -/

@[simp] theorem State.advance_v (s : State) : s.advance.v = s.v := rfl
@[simp] theorem State.advance_i (s : State) : s.advance.i = s.i := rfl
@[simp] theorem State.advance_pc (s : State) : s.advance.pc = s.pc + 2 := rfl
@[simp] theorem State.advance_depth (s : State) : s.advance.depth = s.depth := rfl
@[simp] theorem State.advance_stack (s : State) : s.advance.stack = s.stack := rfl
@[simp] theorem State.advance_dt (s : State) : s.advance.dt = s.dt := rfl
@[simp] theorem State.advance_st (s : State) : s.advance.st = s.st := rfl
@[simp] theorem State.advance_wait (s : State) : s.advance.wait = s.wait := rfl
@[simp] theorem State.advance_keyTarget (s : State) : s.advance.keyTarget = s.keyTarget := rfl
@[simp] theorem State.advance_fault (s : State) : s.advance.fault = s.fault := rfl
@[simp] theorem State.advance_faultKind (s : State) : s.advance.faultKind = s.faultKind := rfl
@[simp] theorem State.advance_faultWord (s : State) : s.advance.faultWord = s.faultWord := rfl
@[simp] theorem State.advance_cfg (s : State) : s.advance.cfg = s.cfg := rfl
@[simp] theorem State.advance_mem (s : State) : s.advance.mem = s.mem := rfl
@[simp] theorem State.advance_fb (s : State) : s.advance.fb = s.fb := rfl
@[simp] theorem State.advance_down (s : State) : s.advance.down = s.down := rfl
@[simp] theorem State.advance_prev (s : State) : s.advance.prev = s.prev := rfl
@[simp] theorem State.advance_hist (s : State) : s.advance.hist = s.hist := rfl
@[simp] theorem State.advance_histCount (s : State) : s.advance.histCount = s.histCount := rfl
@[simp] theorem State.advance_draws (s : State) : s.advance.draws = s.draws := rfl
@[simp] theorem State.advance_schedule (s : State) : s.advance.schedule = s.schedule := rfl
@[simp] theorem State.advance_getV (s : State) (r : Nib) : s.advance.getV r = s.getV r := rfl
@[simp] theorem State.advance_readByte (s : State) (j : Nat) : s.advance.readByte j = s.readByte j := rfl
@[simp] theorem State.advance_isDown (s : State) (j : Nib) : s.advance.isDown j = s.isDown j := rfl
@[simp] theorem State.advance_wasDown (s : State) (j : Nib) : s.advance.wasDown j = s.wasDown j := rfl
@[simp] theorem State.advance_stackAt (s : State) (j : Fin 16) : s.advance.stackAt j = s.stackAt j := rfl
@[simp] theorem State.advance_pixel (s : State) (row col : Nat) : s.advance.pixel row col = s.pixel row col := rfl
@[simp] theorem State.advance_base (s : State) : s.advance.base = s.base := rfl
@[simp] theorem State.advance_sp (s : State) : s.advance.sp = s.sp := rfl

/-! ### skipIf -/

@[simp] theorem State.skipIf_v (s : State) (c : Bool) : (s.skipIf c).v = s.v := rfl
@[simp] theorem State.skipIf_i (s : State) (c : Bool) : (s.skipIf c).i = s.i := rfl
@[simp] theorem State.skipIf_pc (s : State) (c : Bool) : (s.skipIf c).pc = if c then s.pc + 4 else s.pc + 2 := rfl
@[simp] theorem State.skipIf_depth (s : State) (c : Bool) : (s.skipIf c).depth = s.depth := rfl
@[simp] theorem State.skipIf_stack (s : State) (c : Bool) : (s.skipIf c).stack = s.stack := rfl
@[simp] theorem State.skipIf_dt (s : State) (c : Bool) : (s.skipIf c).dt = s.dt := rfl
@[simp] theorem State.skipIf_st (s : State) (c : Bool) : (s.skipIf c).st = s.st := rfl
@[simp] theorem State.skipIf_wait (s : State) (c : Bool) : (s.skipIf c).wait = s.wait := rfl
@[simp] theorem State.skipIf_keyTarget (s : State) (c : Bool) : (s.skipIf c).keyTarget = s.keyTarget := rfl
@[simp] theorem State.skipIf_fault (s : State) (c : Bool) : (s.skipIf c).fault = s.fault := rfl
@[simp] theorem State.skipIf_faultKind (s : State) (c : Bool) : (s.skipIf c).faultKind = s.faultKind := rfl
@[simp] theorem State.skipIf_faultWord (s : State) (c : Bool) : (s.skipIf c).faultWord = s.faultWord := rfl
@[simp] theorem State.skipIf_cfg (s : State) (c : Bool) : (s.skipIf c).cfg = s.cfg := rfl
@[simp] theorem State.skipIf_mem (s : State) (c : Bool) : (s.skipIf c).mem = s.mem := rfl
@[simp] theorem State.skipIf_fb (s : State) (c : Bool) : (s.skipIf c).fb = s.fb := rfl
@[simp] theorem State.skipIf_down (s : State) (c : Bool) : (s.skipIf c).down = s.down := rfl
@[simp] theorem State.skipIf_prev (s : State) (c : Bool) : (s.skipIf c).prev = s.prev := rfl
@[simp] theorem State.skipIf_hist (s : State) (c : Bool) : (s.skipIf c).hist = s.hist := rfl
@[simp] theorem State.skipIf_histCount (s : State) (c : Bool) : (s.skipIf c).histCount = s.histCount := rfl
@[simp] theorem State.skipIf_draws (s : State) (c : Bool) : (s.skipIf c).draws = s.draws := rfl
@[simp] theorem State.skipIf_schedule (s : State) (c : Bool) : (s.skipIf c).schedule = s.schedule := rfl
@[simp] theorem State.skipIf_getV (s : State) (c : Bool) (r : Nib) : (s.skipIf c).getV r = s.getV r := rfl
@[simp] theorem State.skipIf_readByte (s : State) (c : Bool) (j : Nat) : (s.skipIf c).readByte j = s.readByte j := rfl
@[simp] theorem State.skipIf_isDown (s : State) (c : Bool) (j : Nib) : (s.skipIf c).isDown j = s.isDown j := rfl
@[simp] theorem State.skipIf_wasDown (s : State) (c : Bool) (j : Nib) : (s.skipIf c).wasDown j = s.wasDown j := rfl
@[simp] theorem State.skipIf_stackAt (s : State) (c : Bool) (j : Fin 16) : (s.skipIf c).stackAt j = s.stackAt j := rfl
@[simp] theorem State.skipIf_pixel (s : State) (c : Bool) (row col : Nat) : (s.skipIf c).pixel row col = s.pixel row col := rfl
@[simp] theorem State.skipIf_base (s : State) (c : Bool) : (s.skipIf c).base = s.base := rfl
@[simp] theorem State.skipIf_sp (s : State) (c : Bool) : (s.skipIf c).sp = s.sp := rfl

/-! ### setDt -/

@[simp] theorem State.setDt_v (s : State) (b : Byte) : (s.setDt b).v = s.v := rfl
@[simp] theorem State.setDt_i (s : State) (b : Byte) : (s.setDt b).i = s.i := rfl
@[simp] theorem State.setDt_pc (s : State) (b : Byte) : (s.setDt b).pc = s.pc := rfl
@[simp] theorem State.setDt_depth (s : State) (b : Byte) : (s.setDt b).depth = s.depth := rfl
@[simp] theorem State.setDt_stack (s : State) (b : Byte) : (s.setDt b).stack = s.stack := rfl
@[simp] theorem State.setDt_dt (s : State) (b : Byte) : (s.setDt b).dt = b := rfl
@[simp] theorem State.setDt_st (s : State) (b : Byte) : (s.setDt b).st = s.st := rfl
@[simp] theorem State.setDt_wait (s : State) (b : Byte) : (s.setDt b).wait = s.wait := rfl
@[simp] theorem State.setDt_keyTarget (s : State) (b : Byte) : (s.setDt b).keyTarget = s.keyTarget := rfl
@[simp] theorem State.setDt_fault (s : State) (b : Byte) : (s.setDt b).fault = s.fault := rfl
@[simp] theorem State.setDt_faultKind (s : State) (b : Byte) : (s.setDt b).faultKind = s.faultKind := rfl
@[simp] theorem State.setDt_faultWord (s : State) (b : Byte) : (s.setDt b).faultWord = s.faultWord := rfl
@[simp] theorem State.setDt_cfg (s : State) (b : Byte) : (s.setDt b).cfg = s.cfg := rfl
@[simp] theorem State.setDt_mem (s : State) (b : Byte) : (s.setDt b).mem = s.mem := rfl
@[simp] theorem State.setDt_fb (s : State) (b : Byte) : (s.setDt b).fb = s.fb := rfl
@[simp] theorem State.setDt_down (s : State) (b : Byte) : (s.setDt b).down = s.down := rfl
@[simp] theorem State.setDt_prev (s : State) (b : Byte) : (s.setDt b).prev = s.prev := rfl
@[simp] theorem State.setDt_hist (s : State) (b : Byte) : (s.setDt b).hist = s.hist := rfl
@[simp] theorem State.setDt_histCount (s : State) (b : Byte) : (s.setDt b).histCount = s.histCount := rfl
@[simp] theorem State.setDt_draws (s : State) (b : Byte) : (s.setDt b).draws = s.draws := rfl
@[simp] theorem State.setDt_schedule (s : State) (b : Byte) : (s.setDt b).schedule = s.schedule := rfl
@[simp] theorem State.setDt_getV (s : State) (b : Byte) (r : Nib) : (s.setDt b).getV r = s.getV r := rfl
@[simp] theorem State.setDt_readByte (s : State) (b : Byte) (j : Nat) : (s.setDt b).readByte j = s.readByte j := rfl
@[simp] theorem State.setDt_isDown (s : State) (b : Byte) (j : Nib) : (s.setDt b).isDown j = s.isDown j := rfl
@[simp] theorem State.setDt_wasDown (s : State) (b : Byte) (j : Nib) : (s.setDt b).wasDown j = s.wasDown j := rfl
@[simp] theorem State.setDt_stackAt (s : State) (b : Byte) (j : Fin 16) : (s.setDt b).stackAt j = s.stackAt j := rfl
@[simp] theorem State.setDt_pixel (s : State) (b : Byte) (row col : Nat) : (s.setDt b).pixel row col = s.pixel row col := rfl
@[simp] theorem State.setDt_base (s : State) (b : Byte) : (s.setDt b).base = s.base := rfl
@[simp] theorem State.setDt_sp (s : State) (b : Byte) : (s.setDt b).sp = s.sp := rfl

/-! ### setSt -/

@[simp] theorem State.setSt_v (s : State) (b : Byte) : (s.setSt b).v = s.v := rfl
@[simp] theorem State.setSt_i (s : State) (b : Byte) : (s.setSt b).i = s.i := rfl
@[simp] theorem State.setSt_pc (s : State) (b : Byte) : (s.setSt b).pc = s.pc := rfl
@[simp] theorem State.setSt_depth (s : State) (b : Byte) : (s.setSt b).depth = s.depth := rfl
@[simp] theorem State.setSt_stack (s : State) (b : Byte) : (s.setSt b).stack = s.stack := rfl
@[simp] theorem State.setSt_dt (s : State) (b : Byte) : (s.setSt b).dt = s.dt := rfl
@[simp] theorem State.setSt_st (s : State) (b : Byte) : (s.setSt b).st = b := rfl
@[simp] theorem State.setSt_wait (s : State) (b : Byte) : (s.setSt b).wait = s.wait := rfl
@[simp] theorem State.setSt_keyTarget (s : State) (b : Byte) : (s.setSt b).keyTarget = s.keyTarget := rfl
@[simp] theorem State.setSt_fault (s : State) (b : Byte) : (s.setSt b).fault = s.fault := rfl
@[simp] theorem State.setSt_faultKind (s : State) (b : Byte) : (s.setSt b).faultKind = s.faultKind := rfl
@[simp] theorem State.setSt_faultWord (s : State) (b : Byte) : (s.setSt b).faultWord = s.faultWord := rfl
@[simp] theorem State.setSt_cfg (s : State) (b : Byte) : (s.setSt b).cfg = s.cfg := rfl
@[simp] theorem State.setSt_mem (s : State) (b : Byte) : (s.setSt b).mem = s.mem := rfl
@[simp] theorem State.setSt_fb (s : State) (b : Byte) : (s.setSt b).fb = s.fb := rfl
@[simp] theorem State.setSt_down (s : State) (b : Byte) : (s.setSt b).down = s.down := rfl
@[simp] theorem State.setSt_prev (s : State) (b : Byte) : (s.setSt b).prev = s.prev := rfl
@[simp] theorem State.setSt_hist (s : State) (b : Byte) : (s.setSt b).hist = s.hist := rfl
@[simp] theorem State.setSt_histCount (s : State) (b : Byte) : (s.setSt b).histCount = s.histCount := rfl
@[simp] theorem State.setSt_draws (s : State) (b : Byte) : (s.setSt b).draws = s.draws := rfl
@[simp] theorem State.setSt_schedule (s : State) (b : Byte) : (s.setSt b).schedule = s.schedule := rfl
@[simp] theorem State.setSt_getV (s : State) (b : Byte) (r : Nib) : (s.setSt b).getV r = s.getV r := rfl
@[simp] theorem State.setSt_readByte (s : State) (b : Byte) (j : Nat) : (s.setSt b).readByte j = s.readByte j := rfl
@[simp] theorem State.setSt_isDown (s : State) (b : Byte) (j : Nib) : (s.setSt b).isDown j = s.isDown j := rfl
@[simp] theorem State.setSt_wasDown (s : State) (b : Byte) (j : Nib) : (s.setSt b).wasDown j = s.wasDown j := rfl
@[simp] theorem State.setSt_stackAt (s : State) (b : Byte) (j : Fin 16) : (s.setSt b).stackAt j = s.stackAt j := rfl
@[simp] theorem State.setSt_pixel (s : State) (b : Byte) (row col : Nat) : (s.setSt b).pixel row col = s.pixel row col := rfl
@[simp] theorem State.setSt_base (s : State) (b : Byte) : (s.setSt b).base = s.base := rfl
@[simp] theorem State.setSt_sp (s : State) (b : Byte) : (s.setSt b).sp = s.sp := rfl

/-! ### pop -/

@[simp] theorem State.pop_v (s : State) : s.pop.v = s.v := rfl
@[simp] theorem State.pop_i (s : State) : s.pop.i = s.i := rfl
@[simp] theorem State.pop_pc (s : State) : s.pop.pc = s.pc := rfl
@[simp] theorem State.pop_depth (s : State) : s.pop.depth = ⟨s.depth.val - 1, by omega⟩ := rfl
@[simp] theorem State.pop_stack (s : State) : s.pop.stack = s.stack := rfl
@[simp] theorem State.pop_dt (s : State) : s.pop.dt = s.dt := rfl
@[simp] theorem State.pop_st (s : State) : s.pop.st = s.st := rfl
@[simp] theorem State.pop_wait (s : State) : s.pop.wait = s.wait := rfl
@[simp] theorem State.pop_keyTarget (s : State) : s.pop.keyTarget = s.keyTarget := rfl
@[simp] theorem State.pop_fault (s : State) : s.pop.fault = s.fault := rfl
@[simp] theorem State.pop_faultKind (s : State) : s.pop.faultKind = s.faultKind := rfl
@[simp] theorem State.pop_faultWord (s : State) : s.pop.faultWord = s.faultWord := rfl
@[simp] theorem State.pop_cfg (s : State) : s.pop.cfg = s.cfg := rfl
@[simp] theorem State.pop_mem (s : State) : s.pop.mem = s.mem := rfl
@[simp] theorem State.pop_fb (s : State) : s.pop.fb = s.fb := rfl
@[simp] theorem State.pop_down (s : State) : s.pop.down = s.down := rfl
@[simp] theorem State.pop_prev (s : State) : s.pop.prev = s.prev := rfl
@[simp] theorem State.pop_hist (s : State) : s.pop.hist = s.hist := rfl
@[simp] theorem State.pop_histCount (s : State) : s.pop.histCount = s.histCount := rfl
@[simp] theorem State.pop_draws (s : State) : s.pop.draws = s.draws := rfl
@[simp] theorem State.pop_schedule (s : State) : s.pop.schedule = s.schedule := rfl
@[simp] theorem State.pop_getV (s : State) (r : Nib) : s.pop.getV r = s.getV r := rfl
@[simp] theorem State.pop_readByte (s : State) (j : Nat) : s.pop.readByte j = s.readByte j := rfl
@[simp] theorem State.pop_isDown (s : State) (j : Nib) : s.pop.isDown j = s.isDown j := rfl
@[simp] theorem State.pop_wasDown (s : State) (j : Nib) : s.pop.wasDown j = s.wasDown j := rfl
@[simp] theorem State.pop_stackAt (s : State) (j : Fin 16) : s.pop.stackAt j = s.stackAt j := rfl
@[simp] theorem State.pop_pixel (s : State) (row col : Nat) : s.pop.pixel row col = s.pixel row col := rfl
@[simp] theorem State.pop_base (s : State) : s.pop.base = s.base := rfl

/-! ### push -/

@[simp] theorem State.push_v (s : State) (a : Word) (h : s.depth.val < 16) : (s.push a h).v = s.v := rfl
@[simp] theorem State.push_i (s : State) (a : Word) (h : s.depth.val < 16) : (s.push a h).i = s.i := rfl
@[simp] theorem State.push_pc (s : State) (a : Word) (h : s.depth.val < 16) : (s.push a h).pc = s.pc := rfl
@[simp] theorem State.push_depth (s : State) (a : Word) (h : s.depth.val < 16) : (s.push a h).depth = ⟨s.depth.val + 1, by omega⟩ := rfl
@[simp] theorem State.push_stack (s : State) (a : Word) (h : s.depth.val < 16) : (s.push a h).stack = s.stack.set s.depth.val a h := rfl
@[simp] theorem State.push_dt (s : State) (a : Word) (h : s.depth.val < 16) : (s.push a h).dt = s.dt := rfl
@[simp] theorem State.push_st (s : State) (a : Word) (h : s.depth.val < 16) : (s.push a h).st = s.st := rfl
@[simp] theorem State.push_wait (s : State) (a : Word) (h : s.depth.val < 16) : (s.push a h).wait = s.wait := rfl
@[simp] theorem State.push_keyTarget (s : State) (a : Word) (h : s.depth.val < 16) : (s.push a h).keyTarget = s.keyTarget := rfl
@[simp] theorem State.push_fault (s : State) (a : Word) (h : s.depth.val < 16) : (s.push a h).fault = s.fault := rfl
@[simp] theorem State.push_faultKind (s : State) (a : Word) (h : s.depth.val < 16) : (s.push a h).faultKind = s.faultKind := rfl
@[simp] theorem State.push_faultWord (s : State) (a : Word) (h : s.depth.val < 16) : (s.push a h).faultWord = s.faultWord := rfl
@[simp] theorem State.push_cfg (s : State) (a : Word) (h : s.depth.val < 16) : (s.push a h).cfg = s.cfg := rfl
@[simp] theorem State.push_mem (s : State) (a : Word) (h : s.depth.val < 16) : (s.push a h).mem = s.mem := rfl
@[simp] theorem State.push_fb (s : State) (a : Word) (h : s.depth.val < 16) : (s.push a h).fb = s.fb := rfl
@[simp] theorem State.push_down (s : State) (a : Word) (h : s.depth.val < 16) : (s.push a h).down = s.down := rfl
@[simp] theorem State.push_prev (s : State) (a : Word) (h : s.depth.val < 16) : (s.push a h).prev = s.prev := rfl
@[simp] theorem State.push_hist (s : State) (a : Word) (h : s.depth.val < 16) : (s.push a h).hist = s.hist := rfl
@[simp] theorem State.push_histCount (s : State) (a : Word) (h : s.depth.val < 16) : (s.push a h).histCount = s.histCount := rfl
@[simp] theorem State.push_draws (s : State) (a : Word) (h : s.depth.val < 16) : (s.push a h).draws = s.draws := rfl
@[simp] theorem State.push_schedule (s : State) (a : Word) (h : s.depth.val < 16) : (s.push a h).schedule = s.schedule := rfl
@[simp] theorem State.push_getV (s : State) (a : Word) (h : s.depth.val < 16) (r : Nib) : (s.push a h).getV r = s.getV r := rfl
@[simp] theorem State.push_readByte (s : State) (a : Word) (h : s.depth.val < 16) (j : Nat) : (s.push a h).readByte j = s.readByte j := rfl
@[simp] theorem State.push_isDown (s : State) (a : Word) (h : s.depth.val < 16) (j : Nib) : (s.push a h).isDown j = s.isDown j := rfl
@[simp] theorem State.push_wasDown (s : State) (a : Word) (h : s.depth.val < 16) (j : Nib) : (s.push a h).wasDown j = s.wasDown j := rfl
@[simp] theorem State.push_pixel (s : State) (a : Word) (h : s.depth.val < 16) (row col : Nat) : (s.push a h).pixel row col = s.pixel row col := rfl
@[simp] theorem State.push_base (s : State) (a : Word) (h : s.depth.val < 16) : (s.push a h).base = s.base := rfl

/-! ### setFb -/

@[simp] theorem State.setFb_v (s : State) (g : Grid) : (s.setFb g).v = s.v := rfl
@[simp] theorem State.setFb_i (s : State) (g : Grid) : (s.setFb g).i = s.i := rfl
@[simp] theorem State.setFb_pc (s : State) (g : Grid) : (s.setFb g).pc = s.pc := rfl
@[simp] theorem State.setFb_depth (s : State) (g : Grid) : (s.setFb g).depth = s.depth := rfl
@[simp] theorem State.setFb_stack (s : State) (g : Grid) : (s.setFb g).stack = s.stack := rfl
@[simp] theorem State.setFb_dt (s : State) (g : Grid) : (s.setFb g).dt = s.dt := rfl
@[simp] theorem State.setFb_st (s : State) (g : Grid) : (s.setFb g).st = s.st := rfl
@[simp] theorem State.setFb_wait (s : State) (g : Grid) : (s.setFb g).wait = s.wait := rfl
@[simp] theorem State.setFb_keyTarget (s : State) (g : Grid) : (s.setFb g).keyTarget = s.keyTarget := rfl
@[simp] theorem State.setFb_fault (s : State) (g : Grid) : (s.setFb g).fault = s.fault := rfl
@[simp] theorem State.setFb_faultKind (s : State) (g : Grid) : (s.setFb g).faultKind = s.faultKind := rfl
@[simp] theorem State.setFb_faultWord (s : State) (g : Grid) : (s.setFb g).faultWord = s.faultWord := rfl
@[simp] theorem State.setFb_cfg (s : State) (g : Grid) : (s.setFb g).cfg = s.cfg := rfl
@[simp] theorem State.setFb_mem (s : State) (g : Grid) : (s.setFb g).mem = s.mem := rfl
@[simp] theorem State.setFb_fb (s : State) (g : Grid) : (s.setFb g).fb = g := rfl
@[simp] theorem State.setFb_down (s : State) (g : Grid) : (s.setFb g).down = s.down := rfl
@[simp] theorem State.setFb_prev (s : State) (g : Grid) : (s.setFb g).prev = s.prev := rfl
@[simp] theorem State.setFb_hist (s : State) (g : Grid) : (s.setFb g).hist = s.hist := rfl
@[simp] theorem State.setFb_histCount (s : State) (g : Grid) : (s.setFb g).histCount = s.histCount := rfl
@[simp] theorem State.setFb_draws (s : State) (g : Grid) : (s.setFb g).draws = s.draws := rfl
@[simp] theorem State.setFb_schedule (s : State) (g : Grid) : (s.setFb g).schedule = s.schedule := rfl
@[simp] theorem State.setFb_getV (s : State) (g : Grid) (r : Nib) : (s.setFb g).getV r = s.getV r := rfl
@[simp] theorem State.setFb_readByte (s : State) (g : Grid) (j : Nat) : (s.setFb g).readByte j = s.readByte j := rfl
@[simp] theorem State.setFb_isDown (s : State) (g : Grid) (j : Nib) : (s.setFb g).isDown j = s.isDown j := rfl
@[simp] theorem State.setFb_wasDown (s : State) (g : Grid) (j : Nib) : (s.setFb g).wasDown j = s.wasDown j := rfl
@[simp] theorem State.setFb_stackAt (s : State) (g : Grid) (j : Fin 16) : (s.setFb g).stackAt j = s.stackAt j := rfl
@[simp] theorem State.setFb_base (s : State) (g : Grid) : (s.setFb g).base = s.base := rfl
@[simp] theorem State.setFb_sp (s : State) (g : Grid) : (s.setFb g).sp = s.sp := rfl

/-! ### fbClear -/

@[simp] theorem State.fbClear_v (s : State) : s.fbClear.v = s.v := rfl
@[simp] theorem State.fbClear_i (s : State) : s.fbClear.i = s.i := rfl
@[simp] theorem State.fbClear_pc (s : State) : s.fbClear.pc = s.pc := rfl
@[simp] theorem State.fbClear_depth (s : State) : s.fbClear.depth = s.depth := rfl
@[simp] theorem State.fbClear_stack (s : State) : s.fbClear.stack = s.stack := rfl
@[simp] theorem State.fbClear_dt (s : State) : s.fbClear.dt = s.dt := rfl
@[simp] theorem State.fbClear_st (s : State) : s.fbClear.st = s.st := rfl
@[simp] theorem State.fbClear_wait (s : State) : s.fbClear.wait = s.wait := rfl
@[simp] theorem State.fbClear_keyTarget (s : State) : s.fbClear.keyTarget = s.keyTarget := rfl
@[simp] theorem State.fbClear_fault (s : State) : s.fbClear.fault = s.fault := rfl
@[simp] theorem State.fbClear_faultKind (s : State) : s.fbClear.faultKind = s.faultKind := rfl
@[simp] theorem State.fbClear_faultWord (s : State) : s.fbClear.faultWord = s.faultWord := rfl
@[simp] theorem State.fbClear_cfg (s : State) : s.fbClear.cfg = s.cfg := rfl
@[simp] theorem State.fbClear_mem (s : State) : s.fbClear.mem = s.mem := rfl
@[simp] theorem State.fbClear_fb (s : State) : s.fbClear.fb = Grid.dark s.cfg.fbW s.cfg.fbH := rfl
@[simp] theorem State.fbClear_down (s : State) : s.fbClear.down = s.down := rfl
@[simp] theorem State.fbClear_prev (s : State) : s.fbClear.prev = s.prev := rfl
@[simp] theorem State.fbClear_hist (s : State) : s.fbClear.hist = s.hist := rfl
@[simp] theorem State.fbClear_histCount (s : State) : s.fbClear.histCount = s.histCount := rfl
@[simp] theorem State.fbClear_draws (s : State) : s.fbClear.draws = s.draws := rfl
@[simp] theorem State.fbClear_schedule (s : State) : s.fbClear.schedule = s.schedule := rfl
@[simp] theorem State.fbClear_getV (s : State) (r : Nib) : s.fbClear.getV r = s.getV r := rfl
@[simp] theorem State.fbClear_readByte (s : State) (j : Nat) : s.fbClear.readByte j = s.readByte j := rfl
@[simp] theorem State.fbClear_isDown (s : State) (j : Nib) : s.fbClear.isDown j = s.isDown j := rfl
@[simp] theorem State.fbClear_wasDown (s : State) (j : Nib) : s.fbClear.wasDown j = s.wasDown j := rfl
@[simp] theorem State.fbClear_stackAt (s : State) (j : Fin 16) : s.fbClear.stackAt j = s.stackAt j := rfl
@[simp] theorem State.fbClear_base (s : State) : s.fbClear.base = s.base := rfl
@[simp] theorem State.fbClear_sp (s : State) : s.fbClear.sp = s.sp := rfl

/-! ### writeByte -/

@[simp] theorem State.writeByte_v (s : State) (a : Nat) (b : Byte) : (s.writeByte a b).v = s.v := rfl
@[simp] theorem State.writeByte_i (s : State) (a : Nat) (b : Byte) : (s.writeByte a b).i = s.i := rfl
@[simp] theorem State.writeByte_pc (s : State) (a : Nat) (b : Byte) : (s.writeByte a b).pc = s.pc := rfl
@[simp] theorem State.writeByte_depth (s : State) (a : Nat) (b : Byte) : (s.writeByte a b).depth = s.depth := rfl
@[simp] theorem State.writeByte_stack (s : State) (a : Nat) (b : Byte) : (s.writeByte a b).stack = s.stack := rfl
@[simp] theorem State.writeByte_dt (s : State) (a : Nat) (b : Byte) : (s.writeByte a b).dt = s.dt := rfl
@[simp] theorem State.writeByte_st (s : State) (a : Nat) (b : Byte) : (s.writeByte a b).st = s.st := rfl
@[simp] theorem State.writeByte_wait (s : State) (a : Nat) (b : Byte) : (s.writeByte a b).wait = s.wait := rfl
@[simp] theorem State.writeByte_keyTarget (s : State) (a : Nat) (b : Byte) : (s.writeByte a b).keyTarget = s.keyTarget := rfl
@[simp] theorem State.writeByte_fault (s : State) (a : Nat) (b : Byte) : (s.writeByte a b).fault = s.fault := rfl
@[simp] theorem State.writeByte_faultKind (s : State) (a : Nat) (b : Byte) : (s.writeByte a b).faultKind = s.faultKind := rfl
@[simp] theorem State.writeByte_faultWord (s : State) (a : Nat) (b : Byte) : (s.writeByte a b).faultWord = s.faultWord := rfl
@[simp] theorem State.writeByte_cfg (s : State) (a : Nat) (b : Byte) : (s.writeByte a b).cfg = s.cfg := rfl
@[simp] theorem State.writeByte_mem (s : State) (a : Nat) (b : Byte) : (s.writeByte a b).mem = Memory.write s.cfg s.mem a b := rfl
@[simp] theorem State.writeByte_fb (s : State) (a : Nat) (b : Byte) : (s.writeByte a b).fb = s.fb := rfl
@[simp] theorem State.writeByte_down (s : State) (a : Nat) (b : Byte) : (s.writeByte a b).down = s.down := rfl
@[simp] theorem State.writeByte_prev (s : State) (a : Nat) (b : Byte) : (s.writeByte a b).prev = s.prev := rfl
@[simp] theorem State.writeByte_hist (s : State) (a : Nat) (b : Byte) : (s.writeByte a b).hist = s.hist := rfl
@[simp] theorem State.writeByte_histCount (s : State) (a : Nat) (b : Byte) : (s.writeByte a b).histCount = s.histCount := rfl
@[simp] theorem State.writeByte_draws (s : State) (a : Nat) (b : Byte) : (s.writeByte a b).draws = s.draws := rfl
@[simp] theorem State.writeByte_schedule (s : State) (a : Nat) (b : Byte) : (s.writeByte a b).schedule = s.schedule := rfl
@[simp] theorem State.writeByte_getV (s : State) (a : Nat) (b : Byte) (r : Nib) : (s.writeByte a b).getV r = s.getV r := rfl
@[simp] theorem State.writeByte_isDown (s : State) (a : Nat) (b : Byte) (j : Nib) : (s.writeByte a b).isDown j = s.isDown j := rfl
@[simp] theorem State.writeByte_wasDown (s : State) (a : Nat) (b : Byte) (j : Nib) : (s.writeByte a b).wasDown j = s.wasDown j := rfl
@[simp] theorem State.writeByte_stackAt (s : State) (a : Nat) (b : Byte) (j : Fin 16) : (s.writeByte a b).stackAt j = s.stackAt j := rfl
@[simp] theorem State.writeByte_pixel (s : State) (a : Nat) (b : Byte) (row col : Nat) : (s.writeByte a b).pixel row col = s.pixel row col := rfl
@[simp] theorem State.writeByte_base (s : State) (a : Nat) (b : Byte) : (s.writeByte a b).base = s.base := rfl
@[simp] theorem State.writeByte_sp (s : State) (a : Nat) (b : Byte) : (s.writeByte a b).sp = s.sp := rfl

/-! ### drawn -/

@[simp] theorem State.drawn_v (s : State) : s.drawn.v = s.v := rfl
@[simp] theorem State.drawn_i (s : State) : s.drawn.i = s.i := rfl
@[simp] theorem State.drawn_pc (s : State) : s.drawn.pc = s.pc := rfl
@[simp] theorem State.drawn_depth (s : State) : s.drawn.depth = s.depth := rfl
@[simp] theorem State.drawn_stack (s : State) : s.drawn.stack = s.stack := rfl
@[simp] theorem State.drawn_dt (s : State) : s.drawn.dt = s.dt := rfl
@[simp] theorem State.drawn_st (s : State) : s.drawn.st = s.st := rfl
@[simp] theorem State.drawn_wait (s : State) : s.drawn.wait = s.wait := rfl
@[simp] theorem State.drawn_keyTarget (s : State) : s.drawn.keyTarget = s.keyTarget := rfl
@[simp] theorem State.drawn_fault (s : State) : s.drawn.fault = s.fault := rfl
@[simp] theorem State.drawn_faultKind (s : State) : s.drawn.faultKind = s.faultKind := rfl
@[simp] theorem State.drawn_faultWord (s : State) : s.drawn.faultWord = s.faultWord := rfl
@[simp] theorem State.drawn_cfg (s : State) : s.drawn.cfg = s.cfg := rfl
@[simp] theorem State.drawn_mem (s : State) : s.drawn.mem = s.mem := rfl
@[simp] theorem State.drawn_fb (s : State) : s.drawn.fb = s.fb := rfl
@[simp] theorem State.drawn_down (s : State) : s.drawn.down = s.down := rfl
@[simp] theorem State.drawn_prev (s : State) : s.drawn.prev = s.prev := rfl
@[simp] theorem State.drawn_hist (s : State) : s.drawn.hist = s.hist := rfl
@[simp] theorem State.drawn_histCount (s : State) : s.drawn.histCount = s.histCount := rfl
@[simp] theorem State.drawn_draws (s : State) : s.drawn.draws = s.draws + 1 := rfl
@[simp] theorem State.drawn_schedule (s : State) : s.drawn.schedule = s.schedule := rfl
@[simp] theorem State.drawn_getV (s : State) (r : Nib) : s.drawn.getV r = s.getV r := rfl
@[simp] theorem State.drawn_readByte (s : State) (j : Nat) : s.drawn.readByte j = s.readByte j := rfl
@[simp] theorem State.drawn_isDown (s : State) (j : Nib) : s.drawn.isDown j = s.isDown j := rfl
@[simp] theorem State.drawn_wasDown (s : State) (j : Nib) : s.drawn.wasDown j = s.wasDown j := rfl
@[simp] theorem State.drawn_stackAt (s : State) (j : Fin 16) : s.drawn.stackAt j = s.stackAt j := rfl
@[simp] theorem State.drawn_pixel (s : State) (row col : Nat) : s.drawn.pixel row col = s.pixel row col := rfl
@[simp] theorem State.drawn_base (s : State) : s.drawn.base = s.base := rfl
@[simp] theorem State.drawn_sp (s : State) : s.drawn.sp = s.sp := rfl

/-! ### raise -/

@[simp] theorem State.raise_v (s : State) (kind : FaultKind) (w : Word) : (s.raise kind w).v = s.v := rfl
@[simp] theorem State.raise_i (s : State) (kind : FaultKind) (w : Word) : (s.raise kind w).i = s.i := rfl
@[simp] theorem State.raise_pc (s : State) (kind : FaultKind) (w : Word) : (s.raise kind w).pc = s.pc := rfl
@[simp] theorem State.raise_depth (s : State) (kind : FaultKind) (w : Word) : (s.raise kind w).depth = s.depth := rfl
@[simp] theorem State.raise_stack (s : State) (kind : FaultKind) (w : Word) : (s.raise kind w).stack = s.stack := rfl
@[simp] theorem State.raise_dt (s : State) (kind : FaultKind) (w : Word) : (s.raise kind w).dt = s.dt := rfl
@[simp] theorem State.raise_st (s : State) (kind : FaultKind) (w : Word) : (s.raise kind w).st = s.st := rfl
@[simp] theorem State.raise_wait (s : State) (kind : FaultKind) (w : Word) : (s.raise kind w).wait = s.wait := rfl
@[simp] theorem State.raise_keyTarget (s : State) (kind : FaultKind) (w : Word) : (s.raise kind w).keyTarget = s.keyTarget := rfl
@[simp] theorem State.raise_fault (s : State) (kind : FaultKind) (w : Word) : (s.raise kind w).fault = true := rfl
@[simp] theorem State.raise_faultKind (s : State) (kind : FaultKind) (w : Word) : (s.raise kind w).faultKind = kind := rfl
@[simp] theorem State.raise_faultWord (s : State) (kind : FaultKind) (w : Word) : (s.raise kind w).faultWord = w := rfl
@[simp] theorem State.raise_cfg (s : State) (kind : FaultKind) (w : Word) : (s.raise kind w).cfg = s.cfg := rfl
@[simp] theorem State.raise_mem (s : State) (kind : FaultKind) (w : Word) : (s.raise kind w).mem = s.mem := rfl
@[simp] theorem State.raise_fb (s : State) (kind : FaultKind) (w : Word) : (s.raise kind w).fb = s.fb := rfl
@[simp] theorem State.raise_down (s : State) (kind : FaultKind) (w : Word) : (s.raise kind w).down = s.down := rfl
@[simp] theorem State.raise_prev (s : State) (kind : FaultKind) (w : Word) : (s.raise kind w).prev = s.prev := rfl
@[simp] theorem State.raise_hist (s : State) (kind : FaultKind) (w : Word) : (s.raise kind w).hist = s.hist := rfl
@[simp] theorem State.raise_histCount (s : State) (kind : FaultKind) (w : Word) : (s.raise kind w).histCount = s.histCount := rfl
@[simp] theorem State.raise_draws (s : State) (kind : FaultKind) (w : Word) : (s.raise kind w).draws = s.draws := rfl
@[simp] theorem State.raise_schedule (s : State) (kind : FaultKind) (w : Word) : (s.raise kind w).schedule = s.schedule := rfl
@[simp] theorem State.raise_getV (s : State) (kind : FaultKind) (w : Word) (r : Nib) : (s.raise kind w).getV r = s.getV r := rfl
@[simp] theorem State.raise_readByte (s : State) (kind : FaultKind) (w : Word) (j : Nat) : (s.raise kind w).readByte j = s.readByte j := rfl
@[simp] theorem State.raise_isDown (s : State) (kind : FaultKind) (w : Word) (j : Nib) : (s.raise kind w).isDown j = s.isDown j := rfl
@[simp] theorem State.raise_wasDown (s : State) (kind : FaultKind) (w : Word) (j : Nib) : (s.raise kind w).wasDown j = s.wasDown j := rfl
@[simp] theorem State.raise_stackAt (s : State) (kind : FaultKind) (w : Word) (j : Fin 16) : (s.raise kind w).stackAt j = s.stackAt j := rfl
@[simp] theorem State.raise_pixel (s : State) (kind : FaultKind) (w : Word) (row col : Nat) : (s.raise kind w).pixel row col = s.pixel row col := rfl
@[simp] theorem State.raise_base (s : State) (kind : FaultKind) (w : Word) : (s.raise kind w).base = s.base := rfl
@[simp] theorem State.raise_sp (s : State) (kind : FaultKind) (w : Word) : (s.raise kind w).sp = s.sp := rfl

/-! ### awaitKey -/

@[simp] theorem State.awaitKey_v (s : State) (x : Nib) : (s.awaitKey x).v = s.v := rfl
@[simp] theorem State.awaitKey_i (s : State) (x : Nib) : (s.awaitKey x).i = s.i := rfl
@[simp] theorem State.awaitKey_pc (s : State) (x : Nib) : (s.awaitKey x).pc = s.pc := rfl
@[simp] theorem State.awaitKey_depth (s : State) (x : Nib) : (s.awaitKey x).depth = s.depth := rfl
@[simp] theorem State.awaitKey_stack (s : State) (x : Nib) : (s.awaitKey x).stack = s.stack := rfl
@[simp] theorem State.awaitKey_dt (s : State) (x : Nib) : (s.awaitKey x).dt = s.dt := rfl
@[simp] theorem State.awaitKey_st (s : State) (x : Nib) : (s.awaitKey x).st = s.st := rfl
@[simp] theorem State.awaitKey_wait (s : State) (x : Nib) : (s.awaitKey x).wait = true := rfl
@[simp] theorem State.awaitKey_keyTarget (s : State) (x : Nib) : (s.awaitKey x).keyTarget = x := rfl
@[simp] theorem State.awaitKey_fault (s : State) (x : Nib) : (s.awaitKey x).fault = s.fault := rfl
@[simp] theorem State.awaitKey_faultKind (s : State) (x : Nib) : (s.awaitKey x).faultKind = s.faultKind := rfl
@[simp] theorem State.awaitKey_faultWord (s : State) (x : Nib) : (s.awaitKey x).faultWord = s.faultWord := rfl
@[simp] theorem State.awaitKey_cfg (s : State) (x : Nib) : (s.awaitKey x).cfg = s.cfg := rfl
@[simp] theorem State.awaitKey_mem (s : State) (x : Nib) : (s.awaitKey x).mem = s.mem := rfl
@[simp] theorem State.awaitKey_fb (s : State) (x : Nib) : (s.awaitKey x).fb = s.fb := rfl
@[simp] theorem State.awaitKey_down (s : State) (x : Nib) : (s.awaitKey x).down = s.down := rfl
@[simp] theorem State.awaitKey_prev (s : State) (x : Nib) : (s.awaitKey x).prev = s.prev := rfl
@[simp] theorem State.awaitKey_hist (s : State) (x : Nib) : (s.awaitKey x).hist = s.hist := rfl
@[simp] theorem State.awaitKey_histCount (s : State) (x : Nib) : (s.awaitKey x).histCount = s.histCount := rfl
@[simp] theorem State.awaitKey_draws (s : State) (x : Nib) : (s.awaitKey x).draws = s.draws := rfl
@[simp] theorem State.awaitKey_schedule (s : State) (x : Nib) : (s.awaitKey x).schedule = s.schedule := rfl
@[simp] theorem State.awaitKey_getV (s : State) (x : Nib) (r : Nib) : (s.awaitKey x).getV r = s.getV r := rfl
@[simp] theorem State.awaitKey_readByte (s : State) (x : Nib) (j : Nat) : (s.awaitKey x).readByte j = s.readByte j := rfl
@[simp] theorem State.awaitKey_isDown (s : State) (x : Nib) (j : Nib) : (s.awaitKey x).isDown j = s.isDown j := rfl
@[simp] theorem State.awaitKey_wasDown (s : State) (x : Nib) (j : Nib) : (s.awaitKey x).wasDown j = s.wasDown j := rfl
@[simp] theorem State.awaitKey_stackAt (s : State) (x : Nib) (j : Fin 16) : (s.awaitKey x).stackAt j = s.stackAt j := rfl
@[simp] theorem State.awaitKey_pixel (s : State) (x : Nib) (row col : Nat) : (s.awaitKey x).pixel row col = s.pixel row col := rfl
@[simp] theorem State.awaitKey_base (s : State) (x : Nib) : (s.awaitKey x).base = s.base := rfl
@[simp] theorem State.awaitKey_sp (s : State) (x : Nib) : (s.awaitKey x).sp = s.sp := rfl

/-! ### recordHistory -/

@[simp] theorem State.recordHistory_v (s : State) (w : Word) : (s.recordHistory w).v = s.v := rfl
@[simp] theorem State.recordHistory_i (s : State) (w : Word) : (s.recordHistory w).i = s.i := rfl
@[simp] theorem State.recordHistory_pc (s : State) (w : Word) : (s.recordHistory w).pc = s.pc := rfl
@[simp] theorem State.recordHistory_depth (s : State) (w : Word) : (s.recordHistory w).depth = s.depth := rfl
@[simp] theorem State.recordHistory_stack (s : State) (w : Word) : (s.recordHistory w).stack = s.stack := rfl
@[simp] theorem State.recordHistory_dt (s : State) (w : Word) : (s.recordHistory w).dt = s.dt := rfl
@[simp] theorem State.recordHistory_st (s : State) (w : Word) : (s.recordHistory w).st = s.st := rfl
@[simp] theorem State.recordHistory_wait (s : State) (w : Word) : (s.recordHistory w).wait = s.wait := rfl
@[simp] theorem State.recordHistory_keyTarget (s : State) (w : Word) : (s.recordHistory w).keyTarget = s.keyTarget := rfl
@[simp] theorem State.recordHistory_fault (s : State) (w : Word) : (s.recordHistory w).fault = s.fault := rfl
@[simp] theorem State.recordHistory_faultKind (s : State) (w : Word) : (s.recordHistory w).faultKind = s.faultKind := rfl
@[simp] theorem State.recordHistory_faultWord (s : State) (w : Word) : (s.recordHistory w).faultWord = s.faultWord := rfl
@[simp] theorem State.recordHistory_cfg (s : State) (w : Word) : (s.recordHistory w).cfg = s.cfg := rfl
@[simp] theorem State.recordHistory_mem (s : State) (w : Word) : (s.recordHistory w).mem = s.mem := rfl
@[simp] theorem State.recordHistory_fb (s : State) (w : Word) : (s.recordHistory w).fb = s.fb := rfl
@[simp] theorem State.recordHistory_down (s : State) (w : Word) : (s.recordHistory w).down = s.down := rfl
@[simp] theorem State.recordHistory_prev (s : State) (w : Word) : (s.recordHistory w).prev = s.prev := rfl
@[simp] theorem State.recordHistory_histCount (s : State) (w : Word) : (s.recordHistory w).histCount = ⟨min (s.histCount.val + 1) 10, by omega⟩ := rfl
@[simp] theorem State.recordHistory_draws (s : State) (w : Word) : (s.recordHistory w).draws = s.draws := rfl
@[simp] theorem State.recordHistory_schedule (s : State) (w : Word) : (s.recordHistory w).schedule = s.schedule := rfl
@[simp] theorem State.recordHistory_getV (s : State) (w : Word) (r : Nib) : (s.recordHistory w).getV r = s.getV r := rfl
@[simp] theorem State.recordHistory_readByte (s : State) (w : Word) (j : Nat) : (s.recordHistory w).readByte j = s.readByte j := rfl
@[simp] theorem State.recordHistory_isDown (s : State) (w : Word) (j : Nib) : (s.recordHistory w).isDown j = s.isDown j := rfl
@[simp] theorem State.recordHistory_wasDown (s : State) (w : Word) (j : Nib) : (s.recordHistory w).wasDown j = s.wasDown j := rfl
@[simp] theorem State.recordHistory_stackAt (s : State) (w : Word) (j : Fin 16) : (s.recordHistory w).stackAt j = s.stackAt j := rfl
@[simp] theorem State.recordHistory_pixel (s : State) (w : Word) (row col : Nat) : (s.recordHistory w).pixel row col = s.pixel row col := rfl
@[simp] theorem State.recordHistory_base (s : State) (w : Word) : (s.recordHistory w).base = s.base := rfl
@[simp] theorem State.recordHistory_sp (s : State) (w : Word) : (s.recordHistory w).sp = s.sp := rfl

/-! ### cpuReset -/

@[simp] theorem State.cpuReset_v (s : State) : s.cpuReset.v = Vector.replicate 16 0 := rfl
@[simp] theorem State.cpuReset_i (s : State) : s.cpuReset.i = 0 := rfl
@[simp] theorem State.cpuReset_pc (s : State) : s.cpuReset.pc = 0x0200 := rfl
@[simp] theorem State.cpuReset_depth (s : State) : s.cpuReset.depth = 0 := rfl
@[simp] theorem State.cpuReset_stack (s : State) : s.cpuReset.stack = Vector.replicate 16 0 := rfl
@[simp] theorem State.cpuReset_dt (s : State) : s.cpuReset.dt = 0 := rfl
@[simp] theorem State.cpuReset_st (s : State) : s.cpuReset.st = 0 := rfl
@[simp] theorem State.cpuReset_wait (s : State) : s.cpuReset.wait = false := rfl
@[simp] theorem State.cpuReset_keyTarget (s : State) : s.cpuReset.keyTarget = 0 := rfl
@[simp] theorem State.cpuReset_fault (s : State) : s.cpuReset.fault = false := rfl
@[simp] theorem State.cpuReset_faultKind (s : State) : s.cpuReset.faultKind = .none := rfl
@[simp] theorem State.cpuReset_faultWord (s : State) : s.cpuReset.faultWord = 0 := rfl
@[simp] theorem State.cpuReset_cfg (s : State) : s.cpuReset.cfg = s.cfg := rfl
@[simp] theorem State.cpuReset_mem (s : State) : s.cpuReset.mem = s.mem := rfl
@[simp] theorem State.cpuReset_fb (s : State) : s.cpuReset.fb = s.fb := rfl
@[simp] theorem State.cpuReset_down (s : State) : s.cpuReset.down = s.down := rfl
@[simp] theorem State.cpuReset_prev (s : State) : s.cpuReset.prev = s.prev := rfl
@[simp] theorem State.cpuReset_hist (s : State) : s.cpuReset.hist = Vector.replicate 10 0 := rfl
@[simp] theorem State.cpuReset_histCount (s : State) : s.cpuReset.histCount = 0 := rfl
@[simp] theorem State.cpuReset_draws (s : State) : s.cpuReset.draws = s.draws := rfl
@[simp] theorem State.cpuReset_schedule (s : State) : s.cpuReset.schedule = s.schedule := rfl
@[simp] theorem State.cpuReset_readByte (s : State) (j : Nat) : s.cpuReset.readByte j = s.readByte j := rfl
@[simp] theorem State.cpuReset_isDown (s : State) (j : Nib) : s.cpuReset.isDown j = s.isDown j := rfl
@[simp] theorem State.cpuReset_wasDown (s : State) (j : Nib) : s.cpuReset.wasDown j = s.wasDown j := rfl
@[simp] theorem State.cpuReset_pixel (s : State) (row col : Nat) : s.cpuReset.pixel row col = s.pixel row col := rfl

/-! ### turnTaken -/

@[simp] theorem State.turnTaken_v (s : State) : s.turnTaken.v = s.v := rfl
@[simp] theorem State.turnTaken_i (s : State) : s.turnTaken.i = s.i := rfl
@[simp] theorem State.turnTaken_pc (s : State) : s.turnTaken.pc = s.pc := rfl
@[simp] theorem State.turnTaken_depth (s : State) : s.turnTaken.depth = s.depth := rfl
@[simp] theorem State.turnTaken_stack (s : State) : s.turnTaken.stack = s.stack := rfl
@[simp] theorem State.turnTaken_dt (s : State) : s.turnTaken.dt = s.dt := rfl
@[simp] theorem State.turnTaken_st (s : State) : s.turnTaken.st = s.st := rfl
@[simp] theorem State.turnTaken_wait (s : State) : s.turnTaken.wait = s.wait := rfl
@[simp] theorem State.turnTaken_keyTarget (s : State) : s.turnTaken.keyTarget = s.keyTarget := rfl
@[simp] theorem State.turnTaken_fault (s : State) : s.turnTaken.fault = s.fault := rfl
@[simp] theorem State.turnTaken_faultKind (s : State) : s.turnTaken.faultKind = s.faultKind := rfl
@[simp] theorem State.turnTaken_faultWord (s : State) : s.turnTaken.faultWord = s.faultWord := rfl
@[simp] theorem State.turnTaken_cfg (s : State) : s.turnTaken.cfg = s.cfg := rfl
@[simp] theorem State.turnTaken_mem (s : State) : s.turnTaken.mem = s.mem := rfl
@[simp] theorem State.turnTaken_fb (s : State) : s.turnTaken.fb = s.fb := rfl
@[simp] theorem State.turnTaken_down (s : State) : s.turnTaken.down = s.down := rfl
@[simp] theorem State.turnTaken_prev (s : State) : s.turnTaken.prev = s.prev := rfl
@[simp] theorem State.turnTaken_hist (s : State) : s.turnTaken.hist = s.hist := rfl
@[simp] theorem State.turnTaken_histCount (s : State) : s.turnTaken.histCount = s.histCount := rfl
@[simp] theorem State.turnTaken_draws (s : State) : s.turnTaken.draws = s.draws := rfl
@[simp] theorem State.turnTaken_schedule (s : State) : s.turnTaken.schedule = s.schedule.tail := rfl
@[simp] theorem State.turnTaken_getV (s : State) (r : Nib) : s.turnTaken.getV r = s.getV r := rfl
@[simp] theorem State.turnTaken_readByte (s : State) (j : Nat) : s.turnTaken.readByte j = s.readByte j := rfl
@[simp] theorem State.turnTaken_isDown (s : State) (j : Nib) : s.turnTaken.isDown j = s.isDown j := rfl
@[simp] theorem State.turnTaken_wasDown (s : State) (j : Nib) : s.turnTaken.wasDown j = s.wasDown j := rfl
@[simp] theorem State.turnTaken_stackAt (s : State) (j : Fin 16) : s.turnTaken.stackAt j = s.stackAt j := rfl
@[simp] theorem State.turnTaken_pixel (s : State) (row col : Nat) : s.turnTaken.pixel row col = s.pixel row col := rfl
@[simp] theorem State.turnTaken_base (s : State) : s.turnTaken.base = s.base := rfl
@[simp] theorem State.turnTaken_sp (s : State) : s.turnTaken.sp = s.sp := rfl

/-! ### Registers read back -/

@[simp] theorem State.getV_setV (s : State) (x r : Nib) (b : Byte) :
    (s.setV x b).getV r = if r = x then b else s.getV r := by
  unfold State.getV State.setV
  rw [Vector.getElem_set]
  by_cases h : r = x
  · simp [h]
  · have : x.toNat ≠ r.toNat := fun e => h (BitVec.eq_of_toNat_eq e.symm)
    simp [h, this]

@[simp] theorem State.getV_setVF (s : State) (r : Nib) (f : Bool) :
    (s.setVF f).getV r = if r = 0xF then flagByte f else s.getV r := by
  simp only [State.setVF, State.getV_setV]

theorem State.getV_ext {s t : State} (h : ∀ r, s.getV r = t.getV r) : s.v = t.v := by
  apply Vector.ext
  intro k hk
  have := h (BitVec.ofNat 4 k)
  simpa [State.getV, Nat.mod_eq_of_lt hk] using this

@[simp] theorem State.setI_toNat (s : State) (n : Nat) : (s.setI n).i.toNat = n % 4096 := by
  simp only [State.setI_i, BitVec.toNat_ofNat]
  omega

@[simp] theorem State.base_setI (s : State) (n : Nat) : (s.setI n).base = n % 4096 := s.setI_toNat n

/-! ### The stack -/

@[simp] theorem State.stackAt_push (s : State) (a : Word) (h : s.depth.val < 16) (k : Fin 16) :
    (s.push a h).stackAt k = if k.val = s.depth.val then a else s.stackAt k := by
  unfold State.stackAt State.push
  rw [Vector.getElem_set]
  by_cases e : k.val = s.depth.val
  · simp [e]
  · rw [if_neg e, if_neg fun q => e (Eq.symm q)]

@[simp] theorem State.sp_push (s : State) (a : Word) (h : s.depth.val < 16) : (s.push a h).sp = s.sp + 1 := by
  simp only [State.sp, State.push_depth]
  omega

theorem State.sp_pop (s : State) (h : s.depth.val ≠ 0) : s.pop.sp = s.sp - 1 := by
  simp only [State.sp, State.pop_depth]
  omega

/-! ### The history -/

theorem State.recordHistory_newest (s : State) (w : Word) : (s.recordHistory w).hist[0] = w := rfl

theorem State.recordHistory_older (s : State) (w : Word) (k : Fin 9) :
    (s.recordHistory w).hist[k.succ] = s.hist[k.castSucc] := by
  fin_cases k <;> rfl

/-! ### Flags -/

@[simp] theorem flagByte_toNat (b : Bool) : (flagByte b).toNat = b.toNat := by cases b <;> rfl

theorem flagByte_eq_one {b : Bool} : flagByte b = 1 ↔ b = true := by cases b <;> decide

theorem flagByte_eq_zero {b : Bool} : flagByte b = 0 ↔ b = false := by cases b <;> decide

end Sys2Proof.Machine
end

