-- ==== Sys2Proof/Laws/Ops.lean ====
section
/-! SUPPORT. What the shared operations over several cells or registers do, said once: block store, block load, the index
after a block transfer, operand forms (spec/48_family_f.md R200 to R203). -/

namespace Sys2Proof.Machine

/-! ### One byte -/

@[simp] theorem State.readByte_writeByte (s : State) (a k : Nat) (b : Byte) :
    (s.writeByte a b).readByte k = if k % 4096 = a % 4096 then b else s.readByte k :=
  Memory.read_write s.mem a k b

theorem State.readByte_mod (s : State) (a : Nat) : s.readByte (a % 4096) = s.readByte a := Memory.read_mod s.mem a

/-! ### Block store -/

/-- A block store changes memory only. -/
theorem State.storeBlock_eq (s : State) (base n : Nat) :
    s.storeBlock base n = { s with mem := (s.storeBlock base n).mem } := by
  induction n with
  | zero => rfl
  | succ k ih =>
    simp only [State.storeBlock]
    rw [ih]
    rfl

@[simp] theorem State.storeBlock_v (s : State) (base n : Nat) : (s.storeBlock base n).v = s.v := by rw [State.storeBlock_eq]
@[simp] theorem State.storeBlock_i (s : State) (base n : Nat) : (s.storeBlock base n).i = s.i := by rw [State.storeBlock_eq]
@[simp] theorem State.storeBlock_pc (s : State) (base n : Nat) : (s.storeBlock base n).pc = s.pc := by rw [State.storeBlock_eq]
@[simp] theorem State.storeBlock_depth (s : State) (base n : Nat) : (s.storeBlock base n).depth = s.depth := by rw [State.storeBlock_eq]
@[simp] theorem State.storeBlock_stack (s : State) (base n : Nat) : (s.storeBlock base n).stack = s.stack := by rw [State.storeBlock_eq]
@[simp] theorem State.storeBlock_dt (s : State) (base n : Nat) : (s.storeBlock base n).dt = s.dt := by rw [State.storeBlock_eq]
@[simp] theorem State.storeBlock_st (s : State) (base n : Nat) : (s.storeBlock base n).st = s.st := by rw [State.storeBlock_eq]
@[simp] theorem State.storeBlock_wait (s : State) (base n : Nat) : (s.storeBlock base n).wait = s.wait := by rw [State.storeBlock_eq]
@[simp] theorem State.storeBlock_keyTarget (s : State) (base n : Nat) : (s.storeBlock base n).keyTarget = s.keyTarget := by rw [State.storeBlock_eq]
@[simp] theorem State.storeBlock_fault (s : State) (base n : Nat) : (s.storeBlock base n).fault = s.fault := by rw [State.storeBlock_eq]
@[simp] theorem State.storeBlock_faultKind (s : State) (base n : Nat) : (s.storeBlock base n).faultKind = s.faultKind := by rw [State.storeBlock_eq]
@[simp] theorem State.storeBlock_faultWord (s : State) (base n : Nat) : (s.storeBlock base n).faultWord = s.faultWord := by rw [State.storeBlock_eq]
@[simp] theorem State.storeBlock_cfg (s : State) (base n : Nat) : (s.storeBlock base n).cfg = s.cfg := by rw [State.storeBlock_eq]
@[simp] theorem State.storeBlock_fb (s : State) (base n : Nat) : (s.storeBlock base n).fb = s.fb := by rw [State.storeBlock_eq]
@[simp] theorem State.storeBlock_down (s : State) (base n : Nat) : (s.storeBlock base n).down = s.down := by rw [State.storeBlock_eq]
@[simp] theorem State.storeBlock_prev (s : State) (base n : Nat) : (s.storeBlock base n).prev = s.prev := by rw [State.storeBlock_eq]
@[simp] theorem State.storeBlock_hist (s : State) (base n : Nat) : (s.storeBlock base n).hist = s.hist := by rw [State.storeBlock_eq]
@[simp] theorem State.storeBlock_histCount (s : State) (base n : Nat) : (s.storeBlock base n).histCount = s.histCount := by rw [State.storeBlock_eq]
@[simp] theorem State.storeBlock_draws (s : State) (base n : Nat) : (s.storeBlock base n).draws = s.draws := by rw [State.storeBlock_eq]
@[simp] theorem State.storeBlock_schedule (s : State) (base n : Nat) : (s.storeBlock base n).schedule = s.schedule := by rw [State.storeBlock_eq]
@[simp] theorem State.storeBlock_getV (s : State) (base n : Nat) (r : Nib) : (s.storeBlock base n).getV r = s.getV r := by rw [State.storeBlock_eq]; rfl
@[simp] theorem State.storeBlock_isDown (s : State) (base n : Nat) (j : Nib) : (s.storeBlock base n).isDown j = s.isDown j := by rw [State.storeBlock_eq]; rfl
@[simp] theorem State.storeBlock_wasDown (s : State) (base n : Nat) (j : Nib) : (s.storeBlock base n).wasDown j = s.wasDown j := by rw [State.storeBlock_eq]; rfl
@[simp] theorem State.storeBlock_stackAt (s : State) (base n : Nat) (j : Fin 16) : (s.storeBlock base n).stackAt j = s.stackAt j := by rw [State.storeBlock_eq]; rfl
@[simp] theorem State.storeBlock_pixel (s : State) (base n : Nat) (row col : Nat) : (s.storeBlock base n).pixel row col = s.pixel row col := by rw [State.storeBlock_eq]; rfl
@[simp] theorem State.storeBlock_base (s : State) (base n : Nat) : (s.storeBlock base n).base = s.base := by rw [State.storeBlock_eq]; rfl
@[simp] theorem State.storeBlock_sp (s : State) (base n : Nat) : (s.storeBlock base n).sp = s.sp := by rw [State.storeBlock_eq]; rfl

/-- Each stored register is read back at its address, and every other address reads as before. -/
theorem State.readByte_storeBlock (s : State) (base n : Nat) (hn : n ≤ 16) (a : Nat) :
    (s.storeBlock base n).readByte a =
      match (List.range n).find? (fun k => decide (a % 4096 = (base + k) % 4096)) with
      | some k => s.getV (BitVec.ofNat 4 k)
      | none => s.readByte a := by
  induction n with
  | zero => rfl
  | succ k ih =>
    simp only [State.storeBlock, State.readByte_writeByte, State.storeBlock_getV, List.range_succ, List.find?_append,
      ih (by omega)]
    by_cases h : a % 4096 = (base + k) % 4096
    · have : (List.range k).find? (fun j => decide (a % 4096 = (base + j) % 4096)) = none := by
        rw [List.find?_eq_none]
        intro j hj
        have := List.mem_range.1 hj
        simp only [decide_eq_true_eq]
        omega
      rw [if_pos h, this]
      simp [h]
    · cases (List.range k).find? (fun j => decide (a % 4096 = (base + j) % 4096)) <;> simp [h]

theorem State.storeBlock_wf (s : State) (base n : Nat) (w : Memory.wf s.cfg s.mem = true) :
    Memory.wf s.cfg (s.storeBlock base n).mem = true := by
  induction n with
  | zero => exact w
  | succ k ih =>
    rw [State.storeBlock, State.writeByte_mem, State.storeBlock_cfg]
    exact Memory.wf_write ih _ _

/-! ### Block load -/

/-- A block load changes the registers only. -/
theorem State.loadBlock_eq (s : State) (base n : Nat) : s.loadBlock base n = { s with v := (s.loadBlock base n).v } := by
  induction n with
  | zero => rfl
  | succ k ih =>
    simp only [State.loadBlock]
    rw [ih]
    rfl

@[simp] theorem State.loadBlock_i (s : State) (base n : Nat) : (s.loadBlock base n).i = s.i := by rw [State.loadBlock_eq]
@[simp] theorem State.loadBlock_pc (s : State) (base n : Nat) : (s.loadBlock base n).pc = s.pc := by rw [State.loadBlock_eq]
@[simp] theorem State.loadBlock_depth (s : State) (base n : Nat) : (s.loadBlock base n).depth = s.depth := by rw [State.loadBlock_eq]
@[simp] theorem State.loadBlock_stack (s : State) (base n : Nat) : (s.loadBlock base n).stack = s.stack := by rw [State.loadBlock_eq]
@[simp] theorem State.loadBlock_dt (s : State) (base n : Nat) : (s.loadBlock base n).dt = s.dt := by rw [State.loadBlock_eq]
@[simp] theorem State.loadBlock_st (s : State) (base n : Nat) : (s.loadBlock base n).st = s.st := by rw [State.loadBlock_eq]
@[simp] theorem State.loadBlock_wait (s : State) (base n : Nat) : (s.loadBlock base n).wait = s.wait := by rw [State.loadBlock_eq]
@[simp] theorem State.loadBlock_keyTarget (s : State) (base n : Nat) : (s.loadBlock base n).keyTarget = s.keyTarget := by rw [State.loadBlock_eq]
@[simp] theorem State.loadBlock_fault (s : State) (base n : Nat) : (s.loadBlock base n).fault = s.fault := by rw [State.loadBlock_eq]
@[simp] theorem State.loadBlock_faultKind (s : State) (base n : Nat) : (s.loadBlock base n).faultKind = s.faultKind := by rw [State.loadBlock_eq]
@[simp] theorem State.loadBlock_faultWord (s : State) (base n : Nat) : (s.loadBlock base n).faultWord = s.faultWord := by rw [State.loadBlock_eq]
@[simp] theorem State.loadBlock_cfg (s : State) (base n : Nat) : (s.loadBlock base n).cfg = s.cfg := by rw [State.loadBlock_eq]
@[simp] theorem State.loadBlock_mem (s : State) (base n : Nat) : (s.loadBlock base n).mem = s.mem := by rw [State.loadBlock_eq]
@[simp] theorem State.loadBlock_fb (s : State) (base n : Nat) : (s.loadBlock base n).fb = s.fb := by rw [State.loadBlock_eq]
@[simp] theorem State.loadBlock_down (s : State) (base n : Nat) : (s.loadBlock base n).down = s.down := by rw [State.loadBlock_eq]
@[simp] theorem State.loadBlock_prev (s : State) (base n : Nat) : (s.loadBlock base n).prev = s.prev := by rw [State.loadBlock_eq]
@[simp] theorem State.loadBlock_hist (s : State) (base n : Nat) : (s.loadBlock base n).hist = s.hist := by rw [State.loadBlock_eq]
@[simp] theorem State.loadBlock_histCount (s : State) (base n : Nat) : (s.loadBlock base n).histCount = s.histCount := by rw [State.loadBlock_eq]
@[simp] theorem State.loadBlock_draws (s : State) (base n : Nat) : (s.loadBlock base n).draws = s.draws := by rw [State.loadBlock_eq]
@[simp] theorem State.loadBlock_schedule (s : State) (base n : Nat) : (s.loadBlock base n).schedule = s.schedule := by rw [State.loadBlock_eq]
@[simp] theorem State.loadBlock_readByte (s : State) (base n : Nat) (j : Nat) : (s.loadBlock base n).readByte j = s.readByte j := by rw [State.loadBlock_eq]; rfl
@[simp] theorem State.loadBlock_isDown (s : State) (base n : Nat) (j : Nib) : (s.loadBlock base n).isDown j = s.isDown j := by rw [State.loadBlock_eq]; rfl
@[simp] theorem State.loadBlock_wasDown (s : State) (base n : Nat) (j : Nib) : (s.loadBlock base n).wasDown j = s.wasDown j := by rw [State.loadBlock_eq]; rfl
@[simp] theorem State.loadBlock_stackAt (s : State) (base n : Nat) (j : Fin 16) : (s.loadBlock base n).stackAt j = s.stackAt j := by rw [State.loadBlock_eq]; rfl
@[simp] theorem State.loadBlock_pixel (s : State) (base n : Nat) (row col : Nat) : (s.loadBlock base n).pixel row col = s.pixel row col := by rw [State.loadBlock_eq]; rfl
@[simp] theorem State.loadBlock_base (s : State) (base n : Nat) : (s.loadBlock base n).base = s.base := by rw [State.loadBlock_eq]; rfl
@[simp] theorem State.loadBlock_sp (s : State) (base n : Nat) : (s.loadBlock base n).sp = s.sp := by rw [State.loadBlock_eq]; rfl

/-- The registers below n hold the bytes from base on, the others are as before. -/
theorem State.getV_loadBlock (s : State) (base n : Nat) (hn : n ≤ 16) (r : Nib) :
    (s.loadBlock base n).getV r = if r.toNat < n then s.readByte (base + r.toNat) else s.getV r := by
  induction n with
  | zero => rfl
  | succ k ih =>
    simp only [State.loadBlock, State.getV_setV, State.loadBlock_readByte, ih (by omega)]
    by_cases h : r = BitVec.ofNat 4 k
    · have : r.toNat = k := by rw [h, BitVec.toNat_ofNat]; omega
      rw [if_pos h, if_pos (by omega), this]
    · have : r.toNat ≠ k := fun e => h (by rw [← e]; simp)
      simp only [if_neg h]
      by_cases q : r.toNat < k
      · rw [if_pos q, if_pos (by omega)]
      · rw [if_neg q, if_neg (by omega)]

/-! ### The index after a block transfer -/

/-- Only I can change. -/
theorem State.blockIndex_eq (s : State) (base : Nat) (x : Nib) :
    s.blockIndex base x = { s with i := (s.blockIndex base x).i } := by
  unfold State.blockIndex
  split <;> rfl

@[simp] theorem State.blockIndex_v (s : State) (base : Nat) (x : Nib) : (s.blockIndex base x).v = s.v := by rw [State.blockIndex_eq]
@[simp] theorem State.blockIndex_pc (s : State) (base : Nat) (x : Nib) : (s.blockIndex base x).pc = s.pc := by rw [State.blockIndex_eq]
@[simp] theorem State.blockIndex_depth (s : State) (base : Nat) (x : Nib) : (s.blockIndex base x).depth = s.depth := by rw [State.blockIndex_eq]
@[simp] theorem State.blockIndex_stack (s : State) (base : Nat) (x : Nib) : (s.blockIndex base x).stack = s.stack := by rw [State.blockIndex_eq]
@[simp] theorem State.blockIndex_dt (s : State) (base : Nat) (x : Nib) : (s.blockIndex base x).dt = s.dt := by rw [State.blockIndex_eq]
@[simp] theorem State.blockIndex_st (s : State) (base : Nat) (x : Nib) : (s.blockIndex base x).st = s.st := by rw [State.blockIndex_eq]
@[simp] theorem State.blockIndex_wait (s : State) (base : Nat) (x : Nib) : (s.blockIndex base x).wait = s.wait := by rw [State.blockIndex_eq]
@[simp] theorem State.blockIndex_keyTarget (s : State) (base : Nat) (x : Nib) : (s.blockIndex base x).keyTarget = s.keyTarget := by rw [State.blockIndex_eq]
@[simp] theorem State.blockIndex_fault (s : State) (base : Nat) (x : Nib) : (s.blockIndex base x).fault = s.fault := by rw [State.blockIndex_eq]
@[simp] theorem State.blockIndex_faultKind (s : State) (base : Nat) (x : Nib) : (s.blockIndex base x).faultKind = s.faultKind := by rw [State.blockIndex_eq]
@[simp] theorem State.blockIndex_faultWord (s : State) (base : Nat) (x : Nib) : (s.blockIndex base x).faultWord = s.faultWord := by rw [State.blockIndex_eq]
@[simp] theorem State.blockIndex_cfg (s : State) (base : Nat) (x : Nib) : (s.blockIndex base x).cfg = s.cfg := by rw [State.blockIndex_eq]
@[simp] theorem State.blockIndex_mem (s : State) (base : Nat) (x : Nib) : (s.blockIndex base x).mem = s.mem := by rw [State.blockIndex_eq]
@[simp] theorem State.blockIndex_fb (s : State) (base : Nat) (x : Nib) : (s.blockIndex base x).fb = s.fb := by rw [State.blockIndex_eq]
@[simp] theorem State.blockIndex_down (s : State) (base : Nat) (x : Nib) : (s.blockIndex base x).down = s.down := by rw [State.blockIndex_eq]
@[simp] theorem State.blockIndex_prev (s : State) (base : Nat) (x : Nib) : (s.blockIndex base x).prev = s.prev := by rw [State.blockIndex_eq]
@[simp] theorem State.blockIndex_hist (s : State) (base : Nat) (x : Nib) : (s.blockIndex base x).hist = s.hist := by rw [State.blockIndex_eq]
@[simp] theorem State.blockIndex_histCount (s : State) (base : Nat) (x : Nib) : (s.blockIndex base x).histCount = s.histCount := by rw [State.blockIndex_eq]
@[simp] theorem State.blockIndex_draws (s : State) (base : Nat) (x : Nib) : (s.blockIndex base x).draws = s.draws := by rw [State.blockIndex_eq]
@[simp] theorem State.blockIndex_schedule (s : State) (base : Nat) (x : Nib) : (s.blockIndex base x).schedule = s.schedule := by rw [State.blockIndex_eq]
@[simp] theorem State.blockIndex_getV (s : State) (base : Nat) (x : Nib) (r : Nib) : (s.blockIndex base x).getV r = s.getV r := by rw [State.blockIndex_eq]; rfl
@[simp] theorem State.blockIndex_readByte (s : State) (base : Nat) (x : Nib) (j : Nat) : (s.blockIndex base x).readByte j = s.readByte j := by rw [State.blockIndex_eq]; rfl
@[simp] theorem State.blockIndex_isDown (s : State) (base : Nat) (x : Nib) (j : Nib) : (s.blockIndex base x).isDown j = s.isDown j := by rw [State.blockIndex_eq]; rfl
@[simp] theorem State.blockIndex_wasDown (s : State) (base : Nat) (x : Nib) (j : Nib) : (s.blockIndex base x).wasDown j = s.wasDown j := by rw [State.blockIndex_eq]; rfl
@[simp] theorem State.blockIndex_stackAt (s : State) (base : Nat) (x : Nib) (j : Fin 16) : (s.blockIndex base x).stackAt j = s.stackAt j := by rw [State.blockIndex_eq]; rfl
@[simp] theorem State.blockIndex_pixel (s : State) (base : Nat) (x : Nib) (row col : Nat) : (s.blockIndex base x).pixel row col = s.pixel row col := by rw [State.blockIndex_eq]; rfl
@[simp] theorem State.blockIndex_sp (s : State) (base : Nat) (x : Nib) : (s.blockIndex base x).sp = s.sp := by rw [State.blockIndex_eq]; rfl

theorem State.blockIndex_toNat (s : State) (base : Nat) (x : Nib) :
    (s.blockIndex base x).i.toNat =
      if s.cfg.indexIncrement = true then (base + x.toNat + 1) % 4096 else s.i.toNat := by
  unfold State.blockIndex
  split
  · exact s.setI_toNat _
  · rfl

/-! ### Operand forms -/

theorem addrOperand_toNat (a : Addr) : (addrOperand a).toNat = a.toNat := by
  have := a.isLt
  rw [addrOperand, BitVec.toNat_setWidth]
  omega

theorem byteOperand_toNat (b : Byte) : (byteOperand b).toNat = b.toNat := by
  have := b.isLt
  rw [byteOperand, BitVec.toNat_setWidth]
  omega

theorem lowNibble_toNat (b : Byte) : (lowNibble b).toNat = b.toNat % 16 := by
  simp [lowNibble, BitVec.extractLsb'_toNat]

theorem bcdHundreds_toNat (b : Byte) : (bcdHundreds b).toNat = b.toNat / 100 := by
  have := b.isLt
  rw [bcdHundreds, BitVec.toNat_ofNat]
  omega

theorem bcdTens_toNat (b : Byte) : (bcdTens b).toNat = b.toNat / 10 % 10 := by
  rw [bcdTens, BitVec.toNat_ofNat]
  omega

theorem bcdOnes_toNat (b : Byte) : (bcdOnes b).toNat = b.toNat % 10 := by
  rw [bcdOnes, BitVec.toNat_ofNat]
  omega

end Sys2Proof.Machine
end

