-- ==== Sys2Proof/Laws/HostOps.lean ====
section
/-! SUPPORT. What the host's operations do, said once (spec/10_state.md R39; spec/60_exceptions.md R231, R237). -/

namespace Sys2Proof.Machine

/-- A timer goes down by one, floor 0 (R231). -/
theorem countDown_toNat (b : Byte) : (countDown b).toNat = b.toNat - 1 := by
  have := b.isLt
  unfold countDown
  split
  · subst b; rfl
  · rename_i h
    have : b.toNat ≠ 0 := fun e => h (BitVec.eq_of_toNat_eq e)
    rw [BitVec.toNat_sub, show (1 : Byte).toNat = 1 from rfl]
    omega

@[simp] theorem State.isDown_setDown (s : State) (k j : Nib) (b : Bool) :
    (s.setDown k b).isDown j = if j = k then b else s.isDown j := by
  unfold State.isDown State.setDown
  rw [Vector.getElem_set]
  by_cases h : j = k
  · simp [h]
  · have : k.toNat ≠ j.toNat := fun e => h (BitVec.eq_of_toNat_eq e.symm)
    simp [h, this]

@[simp] theorem State.wasDown_setDown (s : State) (k j : Nib) (b : Bool) :
    (s.setDown k b).wasDown j = if j = k then s.isDown k else s.wasDown j := by
  unfold State.wasDown State.setDown
  rw [Vector.getElem_set]
  by_cases h : j = k
  · simp [h]
  · have : k.toNat ≠ j.toNat := fun e => h (BitVec.eq_of_toNat_eq e.symm)
    simp [h, this]

/-! ### The cases of `resolve_key()` (R236) -/

theorem State.resolveKey_refused {s : State} (ready : Bool) (hw : s.wait = false) :
    s.resolveKey ready = .refused .notAwaitingKey := by simp [State.resolveKey, hw]

theorem State.resolveKey_none {s : State} {ready : Bool} (hw : s.wait = true) (hk : s.debouncedKey ready = none) :
    s.resolveKey ready = .next s := by simp [State.resolveKey, hw, hk]

theorem State.resolveKey_some {s : State} {ready : Bool} {k : Nib} (hw : s.wait = true)
    (hk : s.debouncedKey ready = some k) :
    s.resolveKey ready = .next { s.setV s.keyTarget (k.setWidth 8) with wait := false, pc := s.pc + 2 } := by
  simp [State.resolveKey, hw, hk]

/-! ### What each operation leaves and writes, field by field -/

@[simp] theorem State.tickTimers_v (s : State) : s.tickTimers.v = s.v := rfl
@[simp] theorem State.tickTimers_i (s : State) : s.tickTimers.i = s.i := rfl
@[simp] theorem State.tickTimers_pc (s : State) : s.tickTimers.pc = s.pc := rfl
@[simp] theorem State.tickTimers_depth (s : State) : s.tickTimers.depth = s.depth := rfl
@[simp] theorem State.tickTimers_stack (s : State) : s.tickTimers.stack = s.stack := rfl
@[simp] theorem State.tickTimers_dt (s : State) : s.tickTimers.dt = countDown s.dt := rfl
@[simp] theorem State.tickTimers_st (s : State) : s.tickTimers.st = countDown s.st := rfl
@[simp] theorem State.tickTimers_wait (s : State) : s.tickTimers.wait = s.wait := rfl
@[simp] theorem State.tickTimers_keyTarget (s : State) : s.tickTimers.keyTarget = s.keyTarget := rfl
@[simp] theorem State.tickTimers_fault (s : State) : s.tickTimers.fault = s.fault := rfl
@[simp] theorem State.tickTimers_faultKind (s : State) : s.tickTimers.faultKind = s.faultKind := rfl
@[simp] theorem State.tickTimers_faultWord (s : State) : s.tickTimers.faultWord = s.faultWord := rfl
@[simp] theorem State.tickTimers_cfg (s : State) : s.tickTimers.cfg = s.cfg := rfl
@[simp] theorem State.tickTimers_mem (s : State) : s.tickTimers.mem = s.mem := rfl
@[simp] theorem State.tickTimers_fb (s : State) : s.tickTimers.fb = s.fb := rfl
@[simp] theorem State.tickTimers_down (s : State) : s.tickTimers.down = s.down := rfl
@[simp] theorem State.tickTimers_prev (s : State) : s.tickTimers.prev = s.prev := rfl
@[simp] theorem State.tickTimers_hist (s : State) : s.tickTimers.hist = s.hist := rfl
@[simp] theorem State.tickTimers_histCount (s : State) : s.tickTimers.histCount = s.histCount := rfl
@[simp] theorem State.tickTimers_draws (s : State) : s.tickTimers.draws = s.draws := rfl
@[simp] theorem State.tickTimers_schedule (s : State) : s.tickTimers.schedule = s.schedule := rfl
@[simp] theorem State.tickTimers_getV (s : State) (r : Nib) : s.tickTimers.getV r = s.getV r := rfl
@[simp] theorem State.tickTimers_readByte (s : State) (j : Nat) : s.tickTimers.readByte j = s.readByte j := rfl
@[simp] theorem State.tickTimers_isDown (s : State) (j : Nib) : s.tickTimers.isDown j = s.isDown j := rfl
@[simp] theorem State.tickTimers_wasDown (s : State) (j : Nib) : s.tickTimers.wasDown j = s.wasDown j := rfl
@[simp] theorem State.tickTimers_stackAt (s : State) (j : Fin 16) : s.tickTimers.stackAt j = s.stackAt j := rfl
@[simp] theorem State.tickTimers_pixel (s : State) (row col : Nat) : s.tickTimers.pixel row col = s.pixel row col := rfl
@[simp] theorem State.tickTimers_base (s : State) : s.tickTimers.base = s.base := rfl
@[simp] theorem State.tickTimers_sp (s : State) : s.tickTimers.sp = s.sp := rfl
@[simp] theorem State.setDown_v (s : State) (k : Nib) (b : Bool) : (s.setDown k b).v = s.v := rfl
@[simp] theorem State.setDown_i (s : State) (k : Nib) (b : Bool) : (s.setDown k b).i = s.i := rfl
@[simp] theorem State.setDown_pc (s : State) (k : Nib) (b : Bool) : (s.setDown k b).pc = s.pc := rfl
@[simp] theorem State.setDown_depth (s : State) (k : Nib) (b : Bool) : (s.setDown k b).depth = s.depth := rfl
@[simp] theorem State.setDown_stack (s : State) (k : Nib) (b : Bool) : (s.setDown k b).stack = s.stack := rfl
@[simp] theorem State.setDown_dt (s : State) (k : Nib) (b : Bool) : (s.setDown k b).dt = s.dt := rfl
@[simp] theorem State.setDown_st (s : State) (k : Nib) (b : Bool) : (s.setDown k b).st = s.st := rfl
@[simp] theorem State.setDown_wait (s : State) (k : Nib) (b : Bool) : (s.setDown k b).wait = s.wait := rfl
@[simp] theorem State.setDown_keyTarget (s : State) (k : Nib) (b : Bool) : (s.setDown k b).keyTarget = s.keyTarget := rfl
@[simp] theorem State.setDown_fault (s : State) (k : Nib) (b : Bool) : (s.setDown k b).fault = s.fault := rfl
@[simp] theorem State.setDown_faultKind (s : State) (k : Nib) (b : Bool) : (s.setDown k b).faultKind = s.faultKind := rfl
@[simp] theorem State.setDown_faultWord (s : State) (k : Nib) (b : Bool) : (s.setDown k b).faultWord = s.faultWord := rfl
@[simp] theorem State.setDown_cfg (s : State) (k : Nib) (b : Bool) : (s.setDown k b).cfg = s.cfg := rfl
@[simp] theorem State.setDown_mem (s : State) (k : Nib) (b : Bool) : (s.setDown k b).mem = s.mem := rfl
@[simp] theorem State.setDown_fb (s : State) (k : Nib) (b : Bool) : (s.setDown k b).fb = s.fb := rfl
@[simp] theorem State.setDown_hist (s : State) (k : Nib) (b : Bool) : (s.setDown k b).hist = s.hist := rfl
@[simp] theorem State.setDown_histCount (s : State) (k : Nib) (b : Bool) : (s.setDown k b).histCount = s.histCount := rfl
@[simp] theorem State.setDown_draws (s : State) (k : Nib) (b : Bool) : (s.setDown k b).draws = s.draws := rfl
@[simp] theorem State.setDown_schedule (s : State) (k : Nib) (b : Bool) : (s.setDown k b).schedule = s.schedule := rfl
@[simp] theorem State.setDown_getV (s : State) (k : Nib) (b : Bool) (r : Nib) : (s.setDown k b).getV r = s.getV r := rfl
@[simp] theorem State.setDown_readByte (s : State) (k : Nib) (b : Bool) (j : Nat) : (s.setDown k b).readByte j = s.readByte j := rfl
@[simp] theorem State.setDown_stackAt (s : State) (k : Nib) (b : Bool) (j : Fin 16) : (s.setDown k b).stackAt j = s.stackAt j := rfl
@[simp] theorem State.setDown_pixel (s : State) (k : Nib) (b : Bool) (row col : Nat) : (s.setDown k b).pixel row col = s.pixel row col := rfl
@[simp] theorem State.setDown_base (s : State) (k : Nib) (b : Bool) : (s.setDown k b).base = s.base := rfl
@[simp] theorem State.setDown_sp (s : State) (k : Nib) (b : Bool) : (s.setDown k b).sp = s.sp := rfl
@[simp] theorem State.memClear_v (s : State) : s.memClear.v = s.v := rfl
@[simp] theorem State.memClear_i (s : State) : s.memClear.i = s.i := rfl
@[simp] theorem State.memClear_pc (s : State) : s.memClear.pc = s.pc := rfl
@[simp] theorem State.memClear_depth (s : State) : s.memClear.depth = s.depth := rfl
@[simp] theorem State.memClear_stack (s : State) : s.memClear.stack = s.stack := rfl
@[simp] theorem State.memClear_dt (s : State) : s.memClear.dt = s.dt := rfl
@[simp] theorem State.memClear_st (s : State) : s.memClear.st = s.st := rfl
@[simp] theorem State.memClear_wait (s : State) : s.memClear.wait = s.wait := rfl
@[simp] theorem State.memClear_keyTarget (s : State) : s.memClear.keyTarget = s.keyTarget := rfl
@[simp] theorem State.memClear_fault (s : State) : s.memClear.fault = s.fault := rfl
@[simp] theorem State.memClear_faultKind (s : State) : s.memClear.faultKind = s.faultKind := rfl
@[simp] theorem State.memClear_faultWord (s : State) : s.memClear.faultWord = s.faultWord := rfl
@[simp] theorem State.memClear_cfg (s : State) : s.memClear.cfg = s.cfg := rfl
@[simp] theorem State.memClear_mem (s : State) : s.memClear.mem = [] := rfl
@[simp] theorem State.memClear_fb (s : State) : s.memClear.fb = s.fb := rfl
@[simp] theorem State.memClear_down (s : State) : s.memClear.down = s.down := rfl
@[simp] theorem State.memClear_prev (s : State) : s.memClear.prev = s.prev := rfl
@[simp] theorem State.memClear_hist (s : State) : s.memClear.hist = s.hist := rfl
@[simp] theorem State.memClear_histCount (s : State) : s.memClear.histCount = s.histCount := rfl
@[simp] theorem State.memClear_draws (s : State) : s.memClear.draws = s.draws := rfl
@[simp] theorem State.memClear_schedule (s : State) : s.memClear.schedule = s.schedule := rfl
@[simp] theorem State.memClear_getV (s : State) (r : Nib) : s.memClear.getV r = s.getV r := rfl
@[simp] theorem State.memClear_isDown (s : State) (j : Nib) : s.memClear.isDown j = s.isDown j := rfl
@[simp] theorem State.memClear_wasDown (s : State) (j : Nib) : s.memClear.wasDown j = s.wasDown j := rfl
@[simp] theorem State.memClear_stackAt (s : State) (j : Fin 16) : s.memClear.stackAt j = s.stackAt j := rfl
@[simp] theorem State.memClear_pixel (s : State) (row col : Nat) : s.memClear.pixel row col = s.pixel row col := rfl
@[simp] theorem State.memClear_base (s : State) : s.memClear.base = s.base := rfl
@[simp] theorem State.memClear_sp (s : State) : s.memClear.sp = s.sp := rfl

/-- The lowest key down is down, and every key below it is up (R237). -/
theorem State.lowestDown_eq_some {s : State} {k : Nib} :
    s.lowestDown = some k ↔ s.isDown k = true ∧ ∀ j : Nib, j.toNat < k.toNat → s.isDown j = false := by
  have hlt := k.isLt
  rw [State.lowestDown, List.find?_eq_some_iff_getElem]
  constructor
  · rintro ⟨hd, n, hn, hk, hb⟩
    simp only [List.length_map, List.length_range] at hn
    simp only [List.getElem_map, List.getElem_range] at hk hb
    refine ⟨hd, fun j hj => ?_⟩
    have hkn : k.toNat = n := by rw [← hk, BitVec.toNat_ofNat]; omega
    have := hb j.toNat (by omega)
    simpa using this
  · rintro ⟨hd, hb⟩
    refine ⟨hd, k.toNat, by simpa using hlt, by simp, fun n hn => ?_⟩
    have := hb (BitVec.ofNat 4 n) (by rw [BitVec.toNat_ofNat]; omega)
    simpa using this

/-- No key is found exactly when every key is up (R237). -/
theorem State.lowestDown_eq_none {s : State} : s.lowestDown = none ↔ ∀ k, s.isDown k = false := by
  rw [State.lowestDown, List.find?_eq_none]
  constructor
  · intro h k
    have := h k (List.mem_map.2 ⟨k.toNat, List.mem_range.2 k.isLt, by simp⟩)
    simpa using this
  · intro h k _
    simp [h k]

end Sys2Proof.Machine
end

