-- ==== Sys2Proof/Laws/PerInstr.lean ====
section
/-! SUPPORT. One lemma per constructor of Instr: the word the encoder gives an instruction is of the instruction's own row
of the opcode map (spec/30_encoding.md R100), at every operand value. -/

namespace Sys2Proof.Laws

/-- The word of i matches i's row: `W & mask = match` (R100). -/
def TableRow.Statement (i : Instr) : Prop := encode i &&& i.row.mask = i.row.pattern

theorem TableRow.cls : TableRow.Statement (.cls) := and_FFFF _
theorem TableRow.ret : TableRow.Statement (.ret) := and_FFFF _
theorem TableRow.sys (addr : Addr) : TableRow.Statement (.sys addr) := (and_F000 _).trans (by rw [encode, nibbleOf_encA]; rfl)
theorem TableRow.jp (addr : Addr) : TableRow.Statement (.jp addr) := (and_F000 _).trans (by rw [encode, nibbleOf_encA]; rfl)
theorem TableRow.call (addr : Addr) : TableRow.Statement (.call addr) := (and_F000 _).trans (by rw [encode, nibbleOf_encA]; rfl)
theorem TableRow.seImm (x : Nib) (kk : Byte) : TableRow.Statement (.seImm x kk) := (and_F000 _).trans (by rw [encode, nibbleOf_encXK]; rfl)
theorem TableRow.sneImm (x : Nib) (kk : Byte) : TableRow.Statement (.sneImm x kk) := (and_F000 _).trans (by rw [encode, nibbleOf_encXK]; rfl)
theorem TableRow.seReg (x : Nib) (y : Nib) (n : Nib) : TableRow.Statement (.seReg x y n) := (and_F000 _).trans (by rw [encode, nibbleOf_encXYN]; rfl)
theorem TableRow.ldImm (x : Nib) (kk : Byte) : TableRow.Statement (.ldImm x kk) := (and_F000 _).trans (by rw [encode, nibbleOf_encXK]; rfl)
theorem TableRow.addImm (x : Nib) (kk : Byte) : TableRow.Statement (.addImm x kk) := (and_F000 _).trans (by rw [encode, nibbleOf_encXK]; rfl)
theorem TableRow.ldReg (x : Nib) (y : Nib) : TableRow.Statement (.ldReg x y) := (and_F00F _).trans (by rw [encode, nibbleOf_encXYN, nOf_encXYN]; rfl)
theorem TableRow.orReg (x : Nib) (y : Nib) : TableRow.Statement (.orReg x y) := (and_F00F _).trans (by rw [encode, nibbleOf_encXYN, nOf_encXYN]; rfl)
theorem TableRow.andReg (x : Nib) (y : Nib) : TableRow.Statement (.andReg x y) := (and_F00F _).trans (by rw [encode, nibbleOf_encXYN, nOf_encXYN]; rfl)
theorem TableRow.xorReg (x : Nib) (y : Nib) : TableRow.Statement (.xorReg x y) := (and_F00F _).trans (by rw [encode, nibbleOf_encXYN, nOf_encXYN]; rfl)
theorem TableRow.addReg (x : Nib) (y : Nib) : TableRow.Statement (.addReg x y) := (and_F00F _).trans (by rw [encode, nibbleOf_encXYN, nOf_encXYN]; rfl)
theorem TableRow.subReg (x : Nib) (y : Nib) : TableRow.Statement (.subReg x y) := (and_F00F _).trans (by rw [encode, nibbleOf_encXYN, nOf_encXYN]; rfl)
theorem TableRow.shr (x : Nib) (y : Nib) : TableRow.Statement (.shr x y) := (and_F00F _).trans (by rw [encode, nibbleOf_encXYN, nOf_encXYN]; rfl)
theorem TableRow.subnReg (x : Nib) (y : Nib) : TableRow.Statement (.subnReg x y) := (and_F00F _).trans (by rw [encode, nibbleOf_encXYN, nOf_encXYN]; rfl)
theorem TableRow.shl (x : Nib) (y : Nib) : TableRow.Statement (.shl x y) := (and_F00F _).trans (by rw [encode, nibbleOf_encXYN, nOf_encXYN]; rfl)
theorem TableRow.sneReg (x : Nib) (y : Nib) (n : Nib) : TableRow.Statement (.sneReg x y n) := (and_F000 _).trans (by rw [encode, nibbleOf_encXYN]; rfl)
theorem TableRow.ldI (addr : Addr) : TableRow.Statement (.ldI addr) := (and_F000 _).trans (by rw [encode, nibbleOf_encA]; rfl)
theorem TableRow.jpV0 (addr : Addr) : TableRow.Statement (.jpV0 addr) := (and_F000 _).trans (by rw [encode, nibbleOf_encA]; rfl)
theorem TableRow.rnd (x : Nib) (kk : Byte) : TableRow.Statement (.rnd x kk) := (and_F000 _).trans (by rw [encode, nibbleOf_encXK]; rfl)
theorem TableRow.drw (x : Nib) (y : Nib) (n : Nib) : TableRow.Statement (.drw x y n) := (and_F000 _).trans (by rw [encode, nibbleOf_encXYN]; rfl)
theorem TableRow.skp (x : Nib) : TableRow.Statement (.skp x) := (and_F0FF _).trans (by rw [encode, nibbleOf_encXK, kkOf_encXK]; rfl)
theorem TableRow.sknp (x : Nib) : TableRow.Statement (.sknp x) := (and_F0FF _).trans (by rw [encode, nibbleOf_encXK, kkOf_encXK]; rfl)
theorem TableRow.ldVxDt (x : Nib) : TableRow.Statement (.ldVxDt x) := (and_F0FF _).trans (by rw [encode, nibbleOf_encXK, kkOf_encXK]; rfl)
theorem TableRow.ldVxK (x : Nib) : TableRow.Statement (.ldVxK x) := (and_F0FF _).trans (by rw [encode, nibbleOf_encXK, kkOf_encXK]; rfl)
theorem TableRow.ldDtVx (x : Nib) : TableRow.Statement (.ldDtVx x) := (and_F0FF _).trans (by rw [encode, nibbleOf_encXK, kkOf_encXK]; rfl)
theorem TableRow.ldStVx (x : Nib) : TableRow.Statement (.ldStVx x) := (and_F0FF _).trans (by rw [encode, nibbleOf_encXK, kkOf_encXK]; rfl)
theorem TableRow.addI (x : Nib) : TableRow.Statement (.addI x) := (and_F0FF _).trans (by rw [encode, nibbleOf_encXK, kkOf_encXK]; rfl)
theorem TableRow.ldF (x : Nib) : TableRow.Statement (.ldF x) := (and_F0FF _).trans (by rw [encode, nibbleOf_encXK, kkOf_encXK]; rfl)
theorem TableRow.ldB (x : Nib) : TableRow.Statement (.ldB x) := (and_F0FF _).trans (by rw [encode, nibbleOf_encXK, kkOf_encXK]; rfl)
theorem TableRow.storeRegs (x : Nib) : TableRow.Statement (.storeRegs x) := (and_F0FF _).trans (by rw [encode, nibbleOf_encXK, kkOf_encXK]; rfl)
theorem TableRow.loadRegs (x : Nib) : TableRow.Statement (.loadRegs x) := (and_F0FF _).trans (by rw [encode, nibbleOf_encXK, kkOf_encXK]; rfl)

end Sys2Proof.Laws
end

