-- ==== Sys2Proof/Laws/Step.lean ====
section
/-! SUPPORT. What an instruction and a step can do, said once: every instruction answers a next state; what no instruction
writes; the cases of `step()` and of one operation. The frame vocabulary composes. -/

namespace Sys2Proof.Machine

/-! ### Frames -/

theorem Unchanged.refl (s : State) (l : List Component) : Unchanged l s s := by
  intro c _
  cases c <;> simp [Same]

theorem Same.trans {c : Component} {s t u : State} (h : Same c s t) (h' : Same c t u) : Same c s u := by
  cases c <;> simp_all [Same]

theorem Unchanged.mono {l l' : List Component} {s t : State} (h : Unchanged l s t) (sub : ∀ c ∈ l, c ∈ l') :
    Unchanged l' s t := fun c hc => h c fun m => hc (sub c m)

theorem Unchanged.trans {l : List Component} {s t u : State} (h : Unchanged l s t) (h' : Unchanged l t u) :
    Unchanged l s u := fun c hc => (h c hc).trans (h' c hc)

/-- A fault entry writes the fault registers and nothing else. -/
theorem tookFault_raise (s : State) (k : FaultKind) (w : Word) : TookFault k w s (s.raise k w) := by
  refine ⟨rfl, rfl, rfl, fun c hc => ?_⟩
  cases c <;> simp_all [Same]

/-! ### Instructions -/

/-- No instruction stops the machine. -/
theorem exec_answers (i : Instr) (s : State) : ∃ t, exec i s = .next t := by
  cases i
  case ret => simp only [exec, execRet]; split <;> exact ⟨_, rfl⟩
  case call => simp only [exec, execCall]; split <;> exact ⟨_, rfl⟩
  all_goals exact ⟨_, rfl⟩

/-- What no instruction writes: configuration, keypad, history, schedule (R34, R38, R40). -/
theorem exec_keeps {i : Instr} {s t : State} (h : exec i s = .next t) :
    t.cfg = s.cfg ∧ t.down = s.down ∧ t.prev = s.prev ∧ t.hist = s.hist ∧ t.histCount = s.histCount ∧
      t.schedule = s.schedule := by
  cases i
  case ret => simp only [exec, execRet] at h; split at h <;> cases h <;> simp
  case call => simp only [exec, execCall] at h; split at h <;> cases h <;> simp
  all_goals cases h; simp [State.setVFlag]

/-- What an instruction can write, part by part (R22 to R31, R35, R41). -/
theorem exec_writes {i : Instr} {s t : State} (h : exec i s = .next t) :
    (t.mem = s.mem ∨ ∃ x, i = .ldB x ∨ i = .storeRegs x) ∧
    (t.fb = s.fb ∨ i = .cls ∨ ∃ x y n, i = .drw x y n) ∧
    (t.dt = s.dt ∨ ∃ x, i = .ldDtVx x) ∧ (t.st = s.st ∨ ∃ x, i = .ldStVx x) ∧
    ((t.stack = s.stack ∧ t.depth = s.depth) ∨ i = .ret ∨ ∃ a, i = .call a) ∧
    (t.i = s.i ∨ (∃ a, i = .ldI a) ∨ ∃ x, i = .addI x ∨ i = .ldF x ∨ i = .storeRegs x ∨ i = .loadRegs x) ∧
    (∀ r, t.getV r = s.getV r ∨ mayWrite i r = true) ∧
    (t.pc = s.pc ∨ ((∀ x, i ≠ .ldVxK x) ∧ ∀ a, i ≠ .sys a)) ∧
    ((t.wait = s.wait ∧ t.keyTarget = s.keyTarget) ∨ ∃ x, i = .ldVxK x) ∧
    ((t.fault = s.fault ∧ t.faultKind = s.faultKind ∧ t.faultWord = s.faultWord) ∨
      i = .ret ∨ (∃ a, i = .call a) ∨ ∃ a, i = .sys a) ∧
    (t.draws = s.draws ∨ ∃ x kk, i = .rnd x kk) := by
  cases i
  case ret => simp only [exec, execRet] at h; split at h <;> cases h <;> simp
  case call => simp only [exec, execCall] at h; split at h <;> cases h <;> simp
  case loadRegs x =>
    cases h
    simp [mayWrite]
    intro r
    by_cases q : r.toNat ≤ x.toNat
    · exact .inr q
    · left
      rw [State.getV_loadBlock _ _ _ (by omega), if_neg (by omega)]
  all_goals
    cases h
    simp [State.setVFlag, State.setVF, mayWrite]
    try (intro r; first | (split_ifs <;> tauto) | tauto)

/-- An instruction neither reads nor writes the schedule. -/
theorem exec_schedule {i : Instr} {s t : State} (l : List Action) (h : exec i s = .next t) :
    exec i { s with schedule := l } = .next { t with schedule := l } := by
  cases i
  case ret =>
    simp only [exec, execRet] at h ⊢
    split at h <;> cases h <;> rename_i q
    · rw [if_pos q]; rfl
    · rw [if_neg q]; rfl
  case call =>
    simp only [exec, execCall] at h ⊢
    split at h <;> cases h <;> rename_i q
    · rw [dif_pos q]; rfl
    · rw [dif_neg q]; rfl
  case storeRegs x =>
    cases h
    have hb : ∀ n, State.storeBlock { s with schedule := l } s.base n = { s.storeBlock s.base n with schedule := l } := by
      intro n
      induction n with
      | zero => rfl
      | succ k ih => simp only [State.storeBlock, ih]; rfl
    show Host.Outcome.next (State.blockIndex (State.storeBlock { s with schedule := l } s.base _) s.base x).advance = _
    rw [hb]
    unfold State.blockIndex
    split <;> rfl
  case loadRegs x =>
    cases h
    have hb : ∀ n, State.loadBlock { s with schedule := l } s.base n = { s.loadBlock s.base n with schedule := l } := by
      intro n
      induction n with
      | zero => rfl
      | succ k ih => simp only [State.loadBlock, ih]; rfl
    show Host.Outcome.next (State.blockIndex (State.loadBlock { s with schedule := l } s.base _) s.base x).advance = _
    rw [hb]
    unfold State.blockIndex
    split <;> rfl
  all_goals (cases h; rfl)

/-! ### The CPU's step -/

/-- The cases of `step()` (R120). -/
theorem cycle_cases {s t : State} (h : cycle s = .next t) :
    (s.fault = true ∧ t = s) ∨ (s.fault = false ∧ s.wait = true ∧ t = s) ∨
    (s.fault = false ∧ s.wait = false ∧
      ((∃ i, decodeWord s.fetchWord = .ok i ∧ exec i (s.recordHistory s.fetchWord) = .next t) ∨
       (∃ r, decodeWord s.fetchWord = .rejected r ∧
          t = (s.recordHistory s.fetchWord).raise .unknownOpcode s.fetchWord))) := by
  unfold cycle at h
  cases hf : s.fault
  · cases hw : s.wait
    · simp only [hf, hw, Bool.false_eq_true, if_false, executeWord] at h
      refine .inr (.inr ⟨rfl, rfl, ?_⟩)
      cases hd : decodeWord s.fetchWord with
      | ok i => rw [hd] at h; exact .inl ⟨i, rfl, h⟩
      | rejected r => rw [hd] at h; cases h; exact .inr ⟨r, rfl, rfl⟩
    · simp only [hf, hw, Bool.false_eq_true, if_false, if_true] at h
      cases h
      exact .inr (.inl ⟨rfl, rfl, rfl⟩)
  · simp only [hf, if_true] at h
    cases h
    exact .inl ⟨rfl, rfl⟩

/-- `step()` always answers a next state. -/
theorem cycle_answers (s : State) : ∃ t, cycle s = .next t := by
  unfold cycle executeWord
  split
  · exact ⟨_, rfl⟩
  split
  · exact ⟨_, rfl⟩
  split
  · exact exec_answers _ _
  · exact ⟨_, rfl⟩

/-- No operation reads or writes the schedule: a step's only effect on it is to take off the operation performed. -/
theorem perform_schedule {a : Action} {s t : State} (l : List Action) (h : perform a s = .next t) :
    perform a { s with schedule := l } = .next { t with schedule := l } ∧ t.schedule = s.schedule := by
  cases a
  case step =>
    simp only [perform] at h ⊢
    rcases cycle_cases h with ⟨hf, rfl⟩ | ⟨hf, hw, rfl⟩ | ⟨hf, hw, ⟨i, hd, he⟩ | ⟨r, hd, rfl⟩⟩
    · exact ⟨if_pos hf, rfl⟩
    · exact ⟨(if_neg (by simp [hf])).trans (if_pos hw), rfl⟩
    · refine ⟨(if_neg (by simp [hf])).trans ((if_neg (by simp [hw])).trans ?_), (exec_keeps he).2.2.2.2.2⟩
      change executeWord s.fetchWord _ = _
      rw [executeWord, hd]
      exact exec_schedule l he
    · refine ⟨(if_neg (by simp [hf])).trans ((if_neg (by simp [hw])).trans ?_), rfl⟩
      change executeWord s.fetchWord _ = _
      rw [executeWord, hd]
      rfl
  case resolveKey ready =>
    change s.resolveKey ready = _ at h
    rcases Bool.eq_false_or_eq_true s.wait with hw | hw
    · rcases hk : s.debouncedKey ready with _ | k
      · rw [State.resolveKey_none hw hk] at h
        cases h
        exact ⟨State.resolveKey_none (s := { s with schedule := l }) hw hk, rfl⟩
      · rw [State.resolveKey_some hw hk] at h
        cases h
        exact ⟨State.resolveKey_some (s := { s with schedule := l }) hw hk, rfl⟩
    · rw [State.resolveKey_refused ready hw] at h
      cases h
  case memLoad b base =>
    simp only [perform, State.memLoad] at h ⊢
    split at h <;> cases h
    rename_i q
    exact ⟨by rw [if_pos q], rfl⟩
  all_goals (cases h; exact ⟨rfl, rfl⟩)

theorem step_eq (s : State) : step s = perform s.nextAction s.turnTaken := rfl

theorem turnTaken_of_empty {s : State} (h : s.schedule = []) : s.turnTaken = s := by
  cases s
  simp_all [State.turnTaken]

theorem nextAction_of_empty {s : State} (h : s.schedule = []) : s.nextAction = .step := by
  simp [State.nextAction, h]

@[simp] theorem turnTaken_fetchWord (s : State) : s.turnTaken.fetchWord = s.fetchWord := rfl

end Sys2Proof.Machine
end

