-- ==== Sys2Proof/Tests/Slice0.lean ====
section
/-! SUPPORT. Small tests of the model. Words are written out from the patterns of spec/30_encoding.md R100; expected
results are the spec's own vectors (spec/95_test_vectors.md, named V<table>.<row>, S<n>, P<n>). The witnesses show, for each
obligation with hypotheses, a concrete state and operands that meet them. -/

namespace Sys2Proof.Tests

open Sys2Proof Sys2Proof.Machine

/-! ### Well-formedness: the one check -/

theorem test_wf_refuses_sys_of_cls : (Instr.sys 0x0E0).wf = false := by decide
theorem test_wf_refuses_sys_of_ret : (Instr.sys 0x0EE).wf = false := by decide
theorem test_wf_takes_other_sys : (Instr.sys 0x0E1).wf = true := by decide

/-! ### Decoding: words written out bit by bit, one for every constructor -/

theorem test_decode_family_0 :
    decodeWord 0b0000_0000_1110_0000 = .ok .cls ∧ decodeWord 0b0000_0000_1110_1110 = .ok .ret ∧
    decodeWord 0b0000_0001_1110_0000 = .ok (.sys 0x1E0) := by decide

theorem test_decode_families_1_2_A_B :
    decodeWord 0b0001_1010_1011_1100 = .ok (.jp 0xABC) ∧ decodeWord 0b0010_1010_1011_1100 = .ok (.call 0xABC) ∧
    decodeWord 0b1010_0001_0010_0011 = .ok (.ldI 0x123) ∧ decodeWord 0b1011_0011_0000_0001 = .ok (.jpV0 0x301) := by decide

theorem test_decode_families_3_4_5_9 :
    decodeWord 0b0011_0011_0100_0010 = .ok (.seImm 3 0x42) ∧ decodeWord 0b0100_0011_0100_0010 = .ok (.sneImm 3 0x42) ∧
    decodeWord 0b0101_0001_0010_0111 = .ok (.seReg 1 2 7) ∧
    decodeWord 0b1001_0001_0010_1111 = .ok (.sneReg 1 2 0xF) := by decide

theorem test_decode_families_6_7_C :
    decodeWord 0b0110_0000_0000_1010 = .ok (.ldImm 0 0x0A) ∧ decodeWord 0b0111_0010_0000_0010 = .ok (.addImm 2 0x02) ∧
    decodeWord 0b1100_0001_0000_1111 = .ok (.rnd 1 0x0F) := by decide

theorem test_decode_family_8_moves_and_logic :
    decodeWord 0b1000_0001_0010_0000 = .ok (.ldReg 1 2) ∧ decodeWord 0b1000_0001_0010_0001 = .ok (.orReg 1 2) ∧
    decodeWord 0b1000_0001_0010_0010 = .ok (.andReg 1 2) ∧ decodeWord 0b1000_0001_0010_0011 = .ok (.xorReg 1 2) := by
  decide

theorem test_decode_family_8_arithmetic_and_shifts :
    decodeWord 0b1000_0001_0010_0100 = .ok (.addReg 1 2) ∧ decodeWord 0b1000_0001_0010_0101 = .ok (.subReg 1 2) ∧
    decodeWord 0b1000_0001_0010_0110 = .ok (.shr 1 2) ∧ decodeWord 0b1000_0001_0010_0111 = .ok (.subnReg 1 2) ∧
    decodeWord 0b1000_0001_0010_1110 = .ok (.shl 1 2) := by decide

theorem test_decode_families_D_E :
    decodeWord 0b1101_0001_0010_0101 = .ok (.drw 1 2 5) ∧ decodeWord 0b1110_0001_1001_1110 = .ok (.skp 1) ∧
    decodeWord 0b1110_0001_1010_0001 = .ok (.sknp 1) := by decide

theorem test_decode_family_F_timers_and_key :
    decodeWord 0b1111_0100_0000_0111 = .ok (.ldVxDt 4) ∧ decodeWord 0b1111_0011_0000_1010 = .ok (.ldVxK 3) ∧
    decodeWord 0b1111_0100_0001_0101 = .ok (.ldDtVx 4) ∧ decodeWord 0b1111_0100_0001_1000 = .ok (.ldStVx 4) := by decide

theorem test_decode_family_F_index_and_memory :
    decodeWord 0b1111_0001_0001_1110 = .ok (.addI 1) ∧ decodeWord 0b1111_0001_0010_1001 = .ok (.ldF 1) ∧
    decodeWord 0b1111_0001_0011_0011 = .ok (.ldB 1) ∧ decodeWord 0b1111_0010_0101_0101 = .ok (.storeRegs 2) ∧
    decodeWord 0b1111_0010_0110_0101 = .ok (.loadRegs 2) := by decide

/-- V11: words with no row are rejected by name. -/
theorem test_decode_rejects_by_name :
    decodeWord 0x8AB8 = .rejected .undefinedSelector8 ∧ decodeWord 0x8ABF = .rejected .undefinedSelector8 ∧
    decodeWord 0xE1A2 = .rejected .undefinedSelectorE ∧ decodeWord 0xF066 = .rejected .undefinedSelectorF ∧
    decodeBytes [0x60] = (.rejected .truncated, [0x60]) := by decide

/-- High byte first, and the rest of the bytes is handed back (R65, R90). -/
theorem test_decode_bytes : decodeBytes [0x60, 0x0A, 0x61] = (.ok (.ldImm 0 0x0A), [0x61]) := by decide

theorem test_decode_table_word : decodeTableWord 16 0xD125 = some (.drw 1 2 5) ∧ decodeTableWord 16 0xE19F = none := by
  decide

/-! ### Single steps -/

/-- The state after boot, with the two OPEN flags chosen, so that the kernel can evaluate. -/
def boot (shiftLegacy indexIncrement : Bool) : State :=
  { State.reset with cfg := { shiftLegacy, indexIncrement, fbW := 64, fbH := 32, font := Config.defaultFont } }

/-- The first operation of s with w at PC meets p in a next state. -/
def runs (s : State) (w : Nat) (p : State → Bool) : Bool :=
  match step (s.withFetchWord 16 w) with
  | .next t => p t
  | .fault _ => false
  | .refused _ => false

/-- A host operation on s meets p in a next state. -/
def does (s : State) (a : Action) (p : State → Bool) : Bool :=
  match step { s with schedule := [a] } with
  | .next t => p t
  | .fault _ => false
  | .refused _ => false

/-- V2.1 -/
theorem test_cls :
    runs (((boot true true).setFb ((Grid.dark 64 32).toggle 7 5)).setV 0xF 1) 0x00E0
      (fun t => !t.pixel 7 5 && t.getV 0xF == 1 && t.pc == 0x202) = true := by decide

/-- V2.2 -/
theorem test_ret :
    runs (((boot true true).push 0x0ABC (by decide)).setPc 0x20C) 0x00EE
      (fun t => t.pc == 0x0ABC && t.sp == -1 && t.stackAt 0 == 0x0ABC) = true := by decide

/-- V2.3 -/
theorem test_ret_underflow :
    runs (boot true true) 0x00EE (fun t => t.fault && t.faultKind.code == 2 && t.faultWord == 0x00EE && t.pc == 0x200) = true := by
  decide

/-- V2.5 -/
theorem test_sys :
    runs (boot true true) 0x01E0 (fun t => t.fault && t.faultKind.code == 3 && t.faultWord == 0x01E0 && t.pc == 0x200) = true := by
  decide

/-- V2.7 -/
theorem test_jp : runs (boot true true) 0x1ABC (fun t => t.pc == 0x0ABC && t.sp == -1) = true := by decide

/-- V2.11 -/
theorem test_call :
    runs ((boot true true).setPc 0x0FFE) 0x2ABC (fun t => t.sp == 0 && t.stackAt 0 == 0x1000 && t.pc == 0x0ABC) = true := by
  decide

/-- V2.10 -/
theorem test_call_overflow :
    runs { boot true true with depth := 16 } 0x2ABC
      (fun t => t.fault && t.faultKind.code == 1 && t.faultWord == 0x2ABC && t.pc == 0x200 && t.sp == 15) = true := by decide

/-- V2.13: the sum is not masked to 12 bits. -/
theorem test_jp_v0_unmasked : runs ((boot true true).setV 0 0xFF) 0xBFFF (fun t => t.pc == 0x10FE) = true := by decide

/-- V2.14: the offset is V0, not the register of the x field. -/
theorem test_jp_v0_offset : runs ((boot true true).setV 2 0x55) 0xB200 (fun t => t.pc == 0x200) = true := by decide

/-- V3.14: PC + 4 wraps at 16 bits, with the word at 0xFFE. -/
theorem test_se_imm_wrap : runs ((boot true true).setPc 0xFFFE) 0x3000 (fun t => t.pc == 0x0002) = true := by decide
/-- V3.2 -/
theorem test_se_imm_no_skip : runs ((boot true true).setV 3 0x42) 0x3343 (fun t => t.pc == 0x202) = true := by decide
/-- V3.3 -/
theorem test_sne_imm_no_skip : runs ((boot true true).setV 3 0x42) 0x4342 (fun t => t.pc == 0x202) = true := by decide
/-- V3.4 -/
theorem test_sne_imm_skip : runs ((boot true true).setV 3 0x42) 0x4343 (fun t => t.pc == 0x204) = true := by decide
/-- V3.7 -/
theorem test_se_reg_ignores_n :
    runs (((boot true true).setV 1 7).setV 2 7) 0x5127 (fun t => t.pc == 0x204) = true := by decide
/-- V3.6 -/
theorem test_se_reg_no_skip :
    runs (((boot true true).setV 1 7).setV 2 8) 0x5120 (fun t => t.pc == 0x202) = true := by decide
/-- V3.11 -/
theorem test_sne_reg_ignores_n :
    runs (((boot true true).setV 1 7).setV 2 8) 0x912F (fun t => t.pc == 0x204) = true := by decide
/-- V3.10 -/
theorem test_sne_reg_no_skip :
    runs (((boot true true).setV 1 7).setV 2 7) 0x9120 (fun t => t.pc == 0x202) = true := by decide

/-- V4.2 -/
theorem test_ld_imm : runs (boot true true) 0x6F7B (fun t => t.getV 0xF == 0x7B && t.pc == 0x202) = true := by decide
/-- V1.2: the second byte of the word comes from cell 0x000. -/
theorem test_fetch_wraps :
    runs ((boot true true).setPc 0x0FFF) 0x60A5 (fun t => t.getV 0 == 0xA5 && t.pc == 0x1001 && t.readByte 0 == 0xA5) = true := by
  decide
/-- V4.3, S5 -/
theorem test_add_imm_wraps_without_flag :
    runs (((boot true true).setV 2 0xFF).setV 0xF 0x5A) 0x7202 (fun t => t.getV 2 == 1 && t.getV 0xF == 0x5A) = true := by
  decide
/-- V5.2 -/
theorem test_ld_reg : runs ((boot true true).setV 2 0x55) 0x8F20 (fun t => t.getV 0xF == 0x55) = true := by decide
/-- V5.8 -/
theorem test_or_reg :
    runs (((boot true true).setV 0xF 0x81).setV 2 0x42) 0x8F21 (fun t => t.getV 0xF == 0xC3) = true := by decide
/-- V5.5 -/
theorem test_and_reg :
    runs ((((boot true true).setV 1 0xF0).setV 2 0x3C).setV 0xF 0x77) 0x8122
      (fun t => t.getV 1 == 0x30 && t.getV 0xF == 0x77) = true := by decide
/-- V5.6 -/
theorem test_xor_reg :
    runs ((((boot true true).setV 1 0xF0).setV 2 0x3C).setV 0xF 0x77) 0x8123
      (fun t => t.getV 1 == 0xCC && t.getV 0xF == 0x77) = true := by decide
/-- V5.9, S5 -/
theorem test_add_reg_carry :
    runs (((boot true true).setV 1 0xFF).setV 2 2) 0x8124
      (fun t => t.getV 1 == 1 && t.getV 2 == 2 && t.getV 0xF == 1) = true := by decide
/-- V5.16 -/
theorem test_add_reg_flag_wins :
    runs (((boot true true).setV 0xF 0x10).setV 1 1) 0x8F14 (fun t => t.getV 0xF == 0) = true := by decide
/-- V5.22 -/
theorem test_sub_reg_borrow :
    runs (((boot true true).setV 1 0x05).setV 2 0x10) 0x8125 (fun t => t.getV 1 == 0xF5 && t.getV 0xF == 0) = true := by decide
/-- V5.23 -/
theorem test_sub_reg_equal :
    runs (((boot true true).setV 1 0x33).setV 2 0x33) 0x8125 (fun t => t.getV 1 == 0 && t.getV 0xF == 1) = true := by decide
/-- V5.39 -/
theorem test_subn_reg :
    runs (((boot true true).setV 1 0x05).setV 2 0x10) 0x8127 (fun t => t.getV 1 == 0x0B && t.getV 0xF == 1) = true := by decide
/-- V5.43 -/
theorem test_subn_reg_flag_wins :
    runs (((boot true true).setV 0xF 3).setV 1 5) 0x8F17 (fun t => t.getV 0xF == 1) = true := by decide
/-- V5.30 -/
theorem test_shr_in_place :
    runs (((boot false true).setV 1 5).setV 2 8) 0x8126 (fun t => t.getV 1 == 2 && t.getV 2 == 8 && t.getV 0xF == 1) = true := by
  decide
/-- V5.38: under SHIFT_LEGACY the old VF is the source. -/
theorem test_shr_legacy :
    runs (((boot true true).setV 1 0x10).setV 0xF 7) 0x81F6 (fun t => t.getV 1 == 3 && t.getV 0xF == 1) = true := by decide
/-- V5.44 -/
theorem test_shl_in_place :
    runs (((boot false true).setV 1 0x81).setV 2 0x40) 0x812E (fun t => t.getV 1 == 2 && t.getV 0xF == 1) = true := by decide
/-- V5.45 -/
theorem test_shl_legacy :
    runs (((boot true true).setV 1 0x81).setV 2 0x40) 0x812E
      (fun t => t.getV 1 == 0x80 && t.getV 2 == 0x40 && t.getV 0xF == 0) = true := by decide
/-- V5.51 -/
theorem test_illegal_8 :
    runs ((boot true true).setV 1 1) 0x812A
      (fun t => t.fault && t.faultKind.code == 3 && t.faultWord == 0x812A && t.pc == 0x200 && t.getV 1 == 1) = true := by decide

/-- V6.2 -/
theorem test_ld_i : runs (boot true true) 0xAFFF (fun t => t.i == 0x0FFF && t.pc == 0x202) = true := by decide
/-- V6.4: a zero mask gives zero, whatever is drawn. -/
theorem test_rnd_zero_mask : ∃ t, exec (.rnd 1 0x00) (boot true true) = .next t ∧ t.getV 1 = 0 ∧ t.draws = 1 :=
  ⟨_, rfl, BitVec.and_zero, rfl⟩

/-- V7.3: one pixel on under a 1 bit is turned off and reported. -/
theorem test_drw_partial_collision :
    runs (((((boot true true).setI 0x300).writeByte 0x300 0xC0).setFb ((Grid.dark 64 32).toggle 0 1))) 0xD011
      (fun t => t.pixel 0 0 && !t.pixel 0 1 && t.getV 0xF == 1 && t.pc == 0x202) = true := by decide
/-- V7.13: both coordinates wrap, each pixel on its own. -/
theorem test_drw_wraps :
    runs ((((boot true true).setI 0x300).writeByte 0x300 0xFF).setV 0 0xFF) 0xD001
      (fun t => t.pixel 31 63 && t.pixel 31 0 && t.pixel 31 6 && !t.pixel 31 7 && !t.pixel 0 0 && t.getV 0xF == 0) = true := by
  decide

/-- V8.5: the low nibble names the key. -/
theorem test_skp_low_nibble :
    runs (((boot true true).setV 1 0x1A).setDown 0xA true) 0xE19E (fun t => t.pc == 0x204) = true := by decide
/-- V8.2 -/
theorem test_skp_up : runs ((boot true true).setV 1 0x0A) 0xE19E (fun t => t.pc == 0x202) = true := by decide
/-- V8.6 -/
theorem test_sknp_down :
    runs (((boot true true).setV 1 0xF0).setDown 0 true) 0xE1A1 (fun t => t.pc == 0x202) = true := by decide
/-- V8.4 -/
theorem test_sknp_up : runs ((boot true true).setV 1 0x0A) 0xE1A1 (fun t => t.pc == 0x204) = true := by decide
/-- V8.9 -/
theorem test_illegal_E :
    runs (boot true true) 0xE19F (fun t => t.fault && t.faultKind.code == 3 && t.faultWord == 0xE19F && t.pc == 0x200) = true := by
  decide

/-- V9.1 -/
theorem test_ld_vx_dt :
    runs ((boot true true).setDt 0x2A) 0xF407 (fun t => t.getV 4 == 0x2A && t.dt == 0x2A) = true := by decide
/-- V9.4 -/
theorem test_ld_vx_k :
    runs ((boot true true).setPc 0x220) 0xF30A (fun t => t.wait && t.keyTarget == 3 && t.pc == 0x220 && t.getV 3 == 0) = true := by
  decide
/-- V9.2 -/
theorem test_ld_dt_vx : runs ((boot true true).setV 4 0x3C) 0xF415 (fun t => t.dt == 0x3C && t.st == 0) = true := by decide
/-- V9.3 -/
theorem test_ld_st_vx : runs ((boot true true).setV 4 0x05) 0xF418 (fun t => t.st == 5 && t.dt == 0) = true := by decide
/-- V9.10 -/
theorem test_add_i_overflow :
    runs (((boot true true).setI 0xF01).setV 1 0xFF) 0xF11E (fun t => t.i == 0 && t.getV 0xF == 1) = true := by decide
/-- V9.12: the old VF is the addend. -/
theorem test_add_i_vf :
    runs (((boot true true).setI 0x100).setV 0xF 0x10) 0xFF1E (fun t => t.i == 0x110 && t.getV 0xF == 0) = true := by decide
/-- V9.17 -/
theorem test_ld_f_low_nibble : runs ((boot true true).setV 1 0x1A) 0xF129 (fun t => t.i == 0x032) = true := by decide
/-- V9.23: the third digit lands on the font. -/
theorem test_ld_b_wraps :
    runs (((boot true true).setI 0xFFE).setV 1 0x81) 0xF133
      (fun t => t.readByte 0xFFE == 1 && t.readByte 0xFFF == 2 && t.readByte 0 == 9 && t.readByte 1 == 0x90 && t.i == 0xFFE) = true := by
  decide
/-- V9.25 -/
theorem test_store_regs :
    runs (((((boot true false).setI 0x400).setV 0 0x11).setV 2 0x33).setV 3 0x44) 0xF255
      (fun t => t.readByte 0x400 == 0x11 && t.readByte 0x402 == 0x33 && t.readByte 0x403 == 0 && t.i == 0x400) = true := by decide
/-- V9.26 -/
theorem test_store_regs_increment :
    runs ((boot true true).setI 0x400) 0xF255 (fun t => t.i == 0x403) = true := by decide
/-- V9.30 -/
theorem test_load_regs_wraps :
    runs ((((boot true true).setI 0xFFE).writeByte 0xFFE 0xAA).writeByte 0xFFF 0xBB) 0xF265
      (fun t => t.getV 0 == 0xAA && t.getV 1 == 0xBB && t.getV 2 == 0xF0 && t.i == 0x001) = true := by decide
/-- V9.29 -/
theorem test_load_regs_above_unchanged :
    runs (((boot true false).setI 0x300).setV 3 0x77) 0xF265 (fun t => t.getV 3 == 0x77 && t.i == 0x300) = true := by decide
/-- V9.33 -/
theorem test_illegal_F :
    runs (boot true true) 0xF10B (fun t => t.fault && t.faultKind.code == 3 && t.faultWord == 0xF10B && t.pc == 0x200) = true := by
  decide

/-! ### Host operations -/

/-- V10.2, V10.3: the two timers count on their own, zero stays zero. -/
theorem test_tick :
    does ((boot true true).setSt 3) .tickTimers (fun t => t.dt == 0 && t.st == 2) = true := by decide
/-- V10.6, V10.7 -/
theorem test_set_down :
    does (boot true true) (.setDown 4 true) (fun t => t.isDown 4 && !t.wasDown 4 && t.justPressed 4) = true ∧
    does ((boot true true).setDown 4 true) (.setDown 4 true) (fun t => t.isDown 4 && t.wasDown 4 && !t.justPressed 4) = true := by
  decide
/-- V10.10: the lowest key down, B and not D. -/
theorem test_resolve_key :
    does (((((boot true true).setPc 0x220).awaitKey 3).setDown 0xD true).setDown 0xB true) (.resolveKey true)
      (fun t => t.getV 3 == 0x0B && !t.wait && t.pc == 0x222) = true := by decide
/-- V10.9, V10.10: no answer, no change. -/
theorem test_resolve_key_no_answer :
    does (((boot true true).awaitKey 3).setDown 0xB true) (.resolveKey false) (fun t => t.wait && t.getV 3 == 0) = true := by decide
/-- V10.12 -/
theorem test_reset :
    does ((((boot true true).raise .stackOverflow 0x2200).setV 0 0x12).writeByte 0x300 0x77) .reset
      (fun t => !t.fault && t.faultKind.code == 0 && t.getV 0 == 0 && t.pc == 0x200 && t.sp == -1 && t.readByte 0x300 == 0x77) = true := by
  decide
/-- V10.13 -/
theorem test_mem_clear :
    does (((boot true true).writeByte 0 9).writeByte 0x300 0x77) .memClear
      (fun t => t.readByte 0 == 0xF0 && t.readByte 0x300 == 0) = true := by decide
/-- R62, R70: another configured font is the one in memory and the one Memory.clear() installs. -/
theorem test_font_is_configured :
    does { (boot true true).writeByte 0x300 0x77 with cfg := ⟨true, true, 64, 32, Vector.replicate 80 0xAA⟩ } .memClear
      (fun t => t.readByte 0 == 0xAA && t.readByte 79 == 0xAA && t.readByte 80 == 0 && t.readByte 0x300 == 0) = true := by decide
/-- P8's end: KEY_TARGET is in the snapshot while WAIT = 0, stale as it is (R239). -/
theorem test_snapshot_shows_stale_key_target :
    does (((boot true true).awaitKey 3).setDown 0xB true) (.resolveKey true)
      (fun t => t.snapshot.keyTarget == 3 && !t.snapshot.wait && t.snapshot.runState == .running) = true := by decide
/-- V10.14 -/
theorem test_mem_load :
    does (boot true true) (.memLoad [0x12, 0x00] 0x200)
      (fun t => t.readByte 0x200 == 0x12 && t.readByte 0x201 == 0 && t.readByte 0 == 0xF0) = true := by decide
/-- V10.15, in the smallest form. -/
theorem test_mem_load_past_end :
    step { boot true true with schedule := [.memLoad [1, 2] 4095] } = .refused .loadPastEnd := rfl

/-! ### Witnesses: the hypotheses of each obligation can be met, at the boundary of every clause -/

/-- A host operation scheduled. -/
def withAction (s : State) (a : Action) : State := { s with schedule := [a] }

theorem witness_DecodeOfEncode : (Instr.sys 0x0E1).wf = true ∧ (Instr.drw 0xF 0xF 0xF).wf = true ∧ (Instr.seReg 0 0xF 0xF).wf = true := by
  decide

theorem witness_EncodeOfDecode :
    decodeWord 0xFFFF = .rejected .undefinedSelectorF ∧ decodeWord 0xFF65 = .ok (.loadRegs 0xF) ∧ decodeWord 0x0000 = .ok (.sys 0) := by
  decide

/-- A decoded word, one that only SYS's row would also take, and a rejected one. -/
theorem witness_DecoderAgreesWithTheOpcodeMap :
    decodeWord 0xDFFF = .ok (.drw 0xF 0xF 0xF) ∧ decodeWord 0x00E0 = .ok .cls ∧
    (0x00E0 : Word) &&& (Instr.sys 0).row.mask = (Instr.sys 0).row.pattern ∧ ∃ r, decodeWord 0x8AB8 = .rejected r :=
  ⟨by decide, by decide, by decide, _, rfl⟩

/-- Addresses on both sides of the 12-bit wrap, and a byte equal to what the cell reads as when unlisted. -/
theorem witness_ByteReadsBackAfterWrite :
    ((boot true true).writeByte 0x1000 9).readByte 0 = 9 ∧ ((boot true true).writeByte 0 0xF0).readByte 0x1000 = 0xF0 ∧
    ((boot true true).writeByte 0xFFF 9).readByte 0 = 0xF0 := by decide

/-- The smallest framebuffer and the canonical one. -/
theorem witness_SetPixelTogglesAndReports :
    Grid.shaped (Grid.dark 1 1) 1 1 = true ∧ Grid.shaped (boot true true).fb 64 32 = true := by decide

theorem witness_ResetRestoresTheCpuAndLeavesTheRest :
    (withAction ((boot true true).raise .unknownOpcode 0) .reset).nextAction = .reset := rfl

/-- A step from a state that meets the invariant, in each run state. -/
theorem witness_StepKeepsTheInvariant :
    (boot true true).Inv ∧ ((boot true true).raise .unknownOpcode 0).Inv ∧ ((boot true true).awaitKey 3).Inv ∧
    ∃ t, step (boot true true) = .next t := ⟨by decide, by decide, by decide, _, rfl⟩

/-- A faulted state that meets the record, and a step. -/
theorem witness_StepKeepsTheFaultRecord :
    (((boot true true).recordHistory 0x00EE).raise .stackUnderflow 0x00EE).FaultRecord ∧
    ({ (boot true true).recordHistory 0x2000 with depth := 16 }.raise .stackOverflow 0x2000).FaultRecord ∧
    (boot true true).FaultRecord ∧ ∃ t, step (boot true true) = .next t := ⟨by decide, by decide, by decide, _, rfl⟩

theorem witness_FaultedStepChangesNothing :
    ((boot true true).raise .unknownOpcode 0).nextAction = .step ∧ ((boot true true).raise .unknownOpcode 0).fault = true ∧
    ((boot true true).raise .unknownOpcode 0).schedule = [] := by decide

theorem witness_AwaitingStepChangesNothing :
    ((boot true true).awaitKey 3).nextAction = .step ∧ ((boot true true).awaitKey 3).fault = false ∧
    ((boot true true).awaitKey 3).wait = true ∧ ((boot true true).awaitKey 3).schedule = [] := by decide

/-- With nothing scheduled, and with a scheduled step. -/
theorem witness_StepRunsTheDecodedInstruction :
    ∃ s : State, s.nextAction = .step ∧ s.fault = false ∧ s.wait = false ∧ decodeWord s.fetchWord = .ok (.drw 1 2 5) ∧
      (withAction s .step).nextAction = .step := ⟨(boot true true).withFetchWord 16 0xD125, by decide⟩

/-- An illegal word and a legal one. -/
theorem witness_IllegalWordsRaiseUnknownOpcode :
    ∃ s u : State, s.nextAction = .step ∧ s.fault = false ∧ s.wait = false ∧ s.faultKind = .none ∧
      IllegalWord s.fetchWord ∧
      u.nextAction = .step ∧ u.fault = false ∧ u.wait = false ∧ u.faultKind = .none ∧ ¬IllegalWord u.fetchWord ∧
      ∃ t, step u = .next t :=
  ⟨(boot true true).withFetchWord 16 0xF066, (boot true true).withFetchWord 16 0x6001, by decide, by decide, by decide,
    by decide, by decide, by decide, by decide, by decide, by decide, by decide, _, rfl⟩

/-- Nine and ten entries held: the count stops at ten. -/
theorem witness_ExecutingStepRecordsItsWord :
    ∃ s t : State, s.nextAction = .step ∧ s.fault = false ∧ s.wait = false ∧ s.histCount = 10 ∧ step s = .next t ∧
      t.histCount = 10 :=
  ⟨{ (boot true true).withFetchWord 16 0x6001 with histCount := 10 }, _, by decide, by decide, by decide, by decide, rfl,
    by decide⟩

/-- Both refusals happen, and the load that just fits is not refused. -/
theorem witness_OnlyHostMisuseIsRefused :
    step (withAction (boot true true) (.resolveKey true)) = .refused .notAwaitingKey ∧
    step (withAction (boot true true) (.memLoad [1] 4096)) = .refused .loadPastEnd ∧
    ∃ t, step (withAction (boot true true) (.memLoad [] 4096)) = .next t := ⟨rfl, rfl, _, rfl⟩

/-- Nothing scheduled, and an unending run: a faulted machine under a host that steps for ever. -/
theorem witness_CoreRunIsRunOfCycles :
    (boot true true).schedule = [] ∧
    ∃ (host : Nat → Action) (s : Nat → State), IsRun host s ∧ (s 0).schedule = [] :=
  ⟨rfl, fun _ => .step, fun _ => (boot true true).raise .unknownOpcode 0, fun _ => rfl, rfl⟩

theorem witness_ClearTurnsEveryPixelOff : (withAction (boot true true) .fbClear).nextAction = .fbClear := rfl

/-- The empty stack, one frame, and sixteen frames. -/
theorem witness_RetPopsOrUnderflows :
    (boot true true).sp = -1 ∧ { boot true true with depth := 1 }.sp = ((0 : Fin 16).val : Int) ∧
    { boot true true with depth := 16 }.sp = ((15 : Fin 16).val : Int) := by decide

/-- The empty stack, fifteen frames (the last CALL that succeeds), and sixteen. -/
theorem witness_CallPushesOrOverflows :
    (boot true true).sp ≠ 15 ∧ { boot true true with depth := 15 }.sp ≠ 15 ∧ { boot true true with depth := 16 }.sp = 15 := by
  decide

theorem witness_SeventeenthNestedCallOverflows :
    (boot true true).sp = -1 ∧ (boot true true).fault = false ∧ (List.replicate 16 (0x200 : Addr)).length = 16 ∧
    { boot true true with depth := 16 }.sp = 15 := by decide

/-- S3: the state right after the CALL is one that RET may find. -/
theorem witness_RetComesBackAfterCall :
    ∃ s t u : State, s.sp ≠ 15 ∧ exec (.call 0x300) s = .next t ∧ u.sp = t.sp ∧ ∀ k, u.stackAt k = t.stackAt k :=
  ⟨boot true true, _, _, by decide, rfl, rfl, fun _ => rfl⟩

/-- A register above 15: its low nibble is the key. -/
theorem witness_KeySkips : (0xA : Nib).toNat = (((boot true true).setV 1 0x1A).getV 1).toNat % 16 := by decide

/-- Both settings of SHIFT_LEGACY. -/
theorem witness_ShiftsFollowTheConfiguration :
    ((boot true true).setV 2 8).cfg.shiftLegacy = true ∧ (((boot true true).setV 2 8).getV 2).toNat = 8 ∧
    ((boot false true).setV 1 5).cfg.shiftLegacy = false ∧ (((boot false true).setV 1 5).getV 1).toNat = 5 := by decide

/-- An instruction other than RND, and RND with the draw it makes anyway. -/
theorem witness_OnlyRndConsultsTheGenerator :
    (∃ t, exec .cls (boot true true) = .next t) ∧ (∀ x kk, Instr.cls ≠ .rnd x kk) ∧
    (∃ t, exec (.rnd 1 0x0F) (boot true true) = .next t) ∧ Config.rand8 0 = Config.rand8 (boot true true).draws ∧
    ∃ t, step ((boot true true).withFetchWord 16 0xC10F) = .next t :=
  ⟨⟨_, rfl⟩, fun _ _ => nofun, ⟨_, rfl⟩, rfl, _, rfl⟩

/-- The canonical framebuffer, and one narrower than a sprite, where several bits land on one pixel. -/
theorem witness_DrawTogglesAndReportsCollision :
    Grid.shaped (boot true true).fb (boot true true).cfg.fbW (boot true true).cfg.fbH = true ∧
    Grid.shaped (Grid.dark 3 1) 3 1 = true ∧
    { (boot true true).writeByte 0 0xFF with cfg := ⟨true, true, 3, 1, Config.defaultFont⟩, fb := Grid.dark 3 1 }.spriteHits 0 0 1 0 0 = 3 := by
  decide

/-- A 1 by 1 framebuffer and a sprite with one bit. -/
theorem witness_DrawTwiceRestores :
    ∃ s t u : State, 1 ≤ s.cfg.fbW ∧ 1 ≤ s.cfg.fbH ∧ Grid.shaped s.fb s.cfg.fbW s.cfg.fbH = true ∧
      (∀ r c, r < s.cfg.fbH → c < s.cfg.fbW → s.spriteHits 0 1 1 r c ≤ 1) ∧
      exec (.drw 0 1 1) s = .next t ∧ exec (.drw 0 1 1) t = .next u :=
  ⟨{ (boot true true).writeByte 0 0x80 with cfg := ⟨true, true, 1, 1, Config.defaultFont⟩, fb := Grid.dark 1 1 }, _, _, by decide, by decide,
    by decide,
    fun r c hr hc => by
      obtain rfl : r = 0 := Nat.lt_one_iff.mp hr
      obtain rfl : c = 0 := Nat.lt_one_iff.mp hc
      decide,
    rfl, rfl⟩

/-- P7: I is the next instruction's address. -/
theorem witness_StoreIsSeenByTheNextFetch :
    ∃ s t : State, 1 ≤ (1 : Nib).toNat ∧ s.base = (s.pc.toNat + 2) % 4096 ∧ exec (.storeRegs 1) s = .next t :=
  ⟨(boot true true).setI 0x202, _, by decide, by decide, rfl⟩

/-- A tick, and a fair unending run in which no timer is written: DT counts down from 2 under a host that only ticks. -/
theorem witness_TickCountsBothTimersDown :
    (withAction (boot true true) .tickTimers).nextAction = .tickTimers ∧
    ∃ (host : Nat → Action) (s : Nat → State), IsRun host s ∧ FairTicks host ∧ (s 0).dt = 2 ∧
      ∀ k, 0 ≤ k → host k = .step → (s k).runState = .running →
        ∀ x, decodeWord (s k).fetchWord ≠ .ok (.ldDtVx x) ∧ decodeWord (s k).fetchWord ≠ .ok (.ldStVx x) :=
  ⟨rfl, fun _ => .tickTimers, fun k => (Nat.repeat State.tickTimers k ((boot true true).setDt 2)), fun _ => rfl,
    fun n => ⟨n, Nat.le_refl n, rfl⟩, rfl, fun _ _ => nofun⟩

theorem witness_SetDownShiftsOneKey :
    (withAction (boot true true) (.setDown 0xF true)).nextAction = .setDown 0xF true := rfl

/-- Every clause: the query not ready, no key down, and the lowest key down. -/
theorem witness_ResolveKeyCompletesTheWait :
    ∃ s u : State, s.nextAction = .resolveKey true ∧ s.wait = true ∧ (∀ k, s.isDown k = false) ∧
      u.nextAction = .resolveKey true ∧ u.wait = true ∧ u.isDown 0xB = true ∧
      ∀ j : Nib, j.toNat < (0xB : Nib).toNat → u.isDown j = false :=
  ⟨withAction ((boot true true).awaitKey 3) (.resolveKey true),
    withAction (((boot true true).awaitKey 3).setDown 0xB true) (.resolveKey true), by decide⟩

theorem witness_MemoryClearInstallsTheFont : (withAction (boot true true) .memClear).nextAction = .memClear := rfl

/-- A load that ends at the last cell, and one byte more. -/
theorem witness_MemoryLoadCopiesOrIsRefused :
    (withAction (boot true true) (.memLoad [1, 2] 4094)).nextAction = .memLoad [1, 2] 4094 ∧
    4094 + [(1 : Byte), 2].length ≤ 4096 ∧
    (withAction (boot true true) (.memLoad [1, 2] 4095)).nextAction = .memLoad [1, 2] 4095 ∧
    4096 < 4095 + [(1 : Byte), 2].length := by decide

/-- Each of the four transitions happens. -/
theorem witness_RunStateTransitions :
    does ((boot true true).raise .unknownOpcode 0) .reset (fun t => t.runState == .running) = true ∧
    runs (boot true true) 0xF30A (fun t => t.runState == .awaitingKey 3) = true ∧
    does (((boot true true).awaitKey 3).setDown 0 true) (.resolveKey true) (fun t => t.runState == .running) = true ∧
    runs (boot true true) 0x0000 (fun t => t.runState == .faulted) = true := by decide

theorem witness_FaultedUntilReset :
    ∃ s t : State, s.fault = true ∧ s.wait = false ∧ s.nextAction ≠ .reset ∧ step s = .next t :=
  ⟨withAction ((boot true true).raise .unknownOpcode 0) .tickTimers, _, by decide, by decide, by decide, rfl⟩

theorem witness_WritersOfEachPart : ∃ t, step (boot true true) = .next t := ⟨_, rfl⟩

theorem witness_SoundTimerHistoryAndPreviousKeysAreNotRead :
    (∃ t, exec (.ldStVx 1) (boot true true) = .next t) ∧ ∃ t, exec (.skp 1) (boot true true) = .next t :=
  ⟨⟨_, rfl⟩, _, rfl⟩

/-- The jump to itself at 0x200 and at the last address below 0x1000. -/
theorem witness_EndedRunStaysEnded :
    ((boot true true).withFetchWord 16 0x1200).EndedNormally ∧
    ((boot true true).withFetchWord 16 0x1200).nextAction = .step ∧
    (((boot true true).setPc 0xFFF).withFetchWord 16 0x1FFF).EndedNormally := by decide

end Sys2Proof.Tests
end

section
/-! SUPPORT. The framebuffer's own operations (spec/10_state.md R36, R37): SetPixel as the toggle of one pixel inside the
grid, `Framebuffer.clear()` as the dark grid, and the frames of clearing, advancing and taking an operation off the
schedule. -/

namespace Sys2Proof.Machine

/-! ### SetPixel -/

@[simp] theorem setPixel_fst (cfg : Config) (g : Grid) (x y : Nat) :
    (setPixel cfg g x y).1 = g.toggle (y % cfg.fbH) (x % cfg.fbW) := rfl

@[simp] theorem setPixel_snd (cfg : Config) (g : Grid) (x y : Nat) :
    (setPixel cfg g x y).2 = g.pixel (y % cfg.fbH) (x % cfg.fbW) := rfl

theorem Grid.pixel_toggle_self {g : Grid} {w h : Nat} (s : Grid.shaped g w h = true) {r c : Nat} (hr : r < h)
    (hc : c < w) : (g.toggle r c).pixel r c = !g.pixel r c := by
  rw [Grid.pixel_toggle s hr hc, if_pos ⟨rfl, rfl⟩]

/-- Settles O8: the wrapped coordinates lie inside the grid, where a toggle turns over one pixel and is its own
inverse. -/
theorem setPixelTogglesAndReports : Obligations.SetPixelTogglesAndReports := by
  intro cfg g x y hw hh shaped
  have hr : y % cfg.fbH < cfg.fbH := Nat.mod_lt y hh
  have hc : x % cfg.fbW < cfg.fbW := Nat.mod_lt x hw
  exact ⟨setPixel_snd cfg g x y, Grid.pixel_toggle shaped hr hc, Grid.shaped_toggle shaped _ _,
    Grid.toggle_toggle shaped hr hc, Grid.pixel_toggle_self shaped hr hc⟩

/-! ### Framebuffer.clear -/

@[simp] theorem State.fbClear_pixel (s : State) (r c : Nat) : s.fbClear.pixel r c = false :=
  Grid.pixel_dark s.cfg.fbW s.cfg.fbH r c

theorem State.fbClear_shaped (s : State) : Grid.shaped s.fbClear.fb s.cfg.fbW s.cfg.fbH = true :=
  Grid.shaped_dark s.cfg.fbW s.cfg.fbH

theorem State.fbClear_unchanged (s : State) : Unchanged [.fb] s s.fbClear := by
  intro c hc
  cases c <;> simp_all [Same]

theorem State.advance_unchanged (s : State) : Unchanged [.pc] s s.advance := by
  intro c hc
  cases c <;> simp_all [Same]

theorem State.turnTaken_unchanged (s : State) : Unchanged [.schedule] s s.turnTaken := by
  intro c hc
  cases c <;> simp_all [Same]

theorem exec_cls (s : State) : exec .cls s = .next s.fbClear.advance := rfl

theorem step_of_fbClear {s : State} (h : s.nextAction = .fbClear) : step s = .next s.turnTaken.fbClear := by
  rw [step_eq, h, perform]

/-- Settles O21: `00E0` is `Framebuffer.clear()` followed by PC + 2, and the host's call is `Framebuffer.clear()` with the
operation taken off the schedule. -/
theorem clearTurnsEveryPixelOff : Obligations.ClearTurnsEveryPixelOff := by
  intro s
  constructor
  · have frame : Unchanged [.fb, .pc] s s.fbClear.advance :=
      (s.fbClear_unchanged.mono (by simp)).trans (s.fbClear.advance_unchanged.mono (by simp))
    exact ⟨s.fbClear.advance, exec_cls s, s.fbClear_pixel, s.fbClear_shaped, rfl, frame⟩
  · intro host
    have frame : Unchanged [.fb, .schedule] s s.turnTaken.fbClear :=
      (s.turnTaken_unchanged.mono (by simp)).trans (s.turnTaken.fbClear_unchanged.mono (by simp))
    exact ⟨s.turnTaken.fbClear, step_of_fbClear host, s.turnTaken.fbClear_pixel, s.turnTaken.fbClear_shaped, frame⟩

end Sys2Proof.Machine
end

section
/-! SUPPORT. The fields of a word as numbers (spec/30_encoding.md R91, R92): each wider field is the concatenation of
narrower ones, and the four nibbles reassemble the word. -/

namespace Sys2Proof.Laws

theorem nibbles_toNat_sum (w : Word) :
    (nibbleOf w).toNat * 0x1000 + (xOf w).toNat * 0x100 + (yOf w).toNat * 0x10 + (nOf w).toNat = w.toNat := by
  rw [← encXYN_toNat, encXYN_fields]

theorem kkOf_toNat_eq_y_n (w : Word) : (kkOf w).toNat = (yOf w).toNat * 0x10 + (nOf w).toNat := by
  rw [kkOf_toNat, yOf_toNat, nOf_toNat]
  omega

theorem addrOf_toNat_eq_x_kk (w : Word) : (addrOf w).toNat = (xOf w).toNat * 0x100 + (kkOf w).toNat := by
  rw [addrOf_toNat, xOf_toNat, kkOf_toNat]
  omega

/-- Settles O1: the word encoded from its own four nibbles is the word itself, and both immediates split at a multiple of
four bits. -/
theorem fieldsReassembleTheWord : Obligations.FieldsReassembleTheWord := by
  intro w
  exact ⟨nibbles_toNat_sum w, kkOf_toNat_eq_y_n w, addrOf_toNat_eq_x_kk w⟩

end Sys2Proof.Laws
end

section
/-! SUPPORT. The fault gate of `step()` (spec/40_step_cycle.md R110): the first test of the cycle, so a faulted CPU's step
takes the operation off the schedule and does nothing else. -/

namespace Sys2Proof.Machine

theorem step_of_step {s : State} (h : s.nextAction = .step) : step s = cycle s.turnTaken := by
  rw [step_eq, h, perform]

theorem cycle_of_fault {s : State} (hf : s.fault = true) : cycle s = .next s := if_pos hf

/-- Settles O14: the step is one cycle, and the cycle's first test finds FAULT = 1, whatever WAIT is. -/
theorem faultedStepChangesNothing : Obligations.FaultedStepChangesNothing := by
  intro s cpu hf
  have gate : step s = .next s.turnTaken := (step_of_step cpu).trans (cycle_of_fault (s.turnTaken_fault.trans hf))
  exact ⟨gate, s.turnTaken_unchanged, turnTaken_of_empty⟩

end Sys2Proof.Machine
end

section
/-! SUPPORT. JP (spec/41_flow.md R133): the decoder on a word of family 1, and the frame of a write of PC. -/

namespace Sys2Proof.Machine

theorem decodeWord_encA_one (addr : Addr) : decodeWord (encA 0x1 addr) = .ok (.jp addr) := by
  rw [decodeWord_family1 (nibbleOf_encA 0x1 addr), addrOf_encA]

theorem State.setPc_unchanged (s : State) (n : Word) : Unchanged [.pc] s (s.setPc n) := by
  intro c hc
  cases c <;> simp_all [Same]

theorem exec_jp (addr : Addr) (s : State) : exec (.jp addr) s = .next (s.setPc (addrOperand addr)) := rfl

/-- Settles O24: the word is format A of family 1, and JP is a write of PC with the zero-extended address. -/
theorem jpSetsPc : Obligations.JpSetsPc := by
  intro s addr
  have pc : (s.setPc (addrOperand addr)).pc.toNat = addr.toNat := by
    rw [State.setPc_pc, addrOperand_toNat]
  exact ⟨decodeWord_encA_one addr, s.setPc (addrOperand addr), exec_jp addr s, pc, s.setPc_unchanged _⟩

end Sys2Proof.Machine
end

section
/-! SUPPORT. LD and ADD with an immediate, LD between registers (spec/43_immediate.md R150, R151; spec/44_alu.md R155):
each is a write of one register followed by PC + 2, so one register rule and one frame serve all three. -/

namespace Sys2Proof.Machine

theorem decodeWord_encXK_six (x : Nib) (kk : Byte) : decodeWord (encXK 0x6 x kk) = .ok (.ldImm x kk) := by
  rw [decodeWord_family6 (nibbleOf_encXK 0x6 x kk), xOf_encXK, kkOf_encXK]

theorem decodeWord_encXK_seven (x : Nib) (kk : Byte) : decodeWord (encXK 0x7 x kk) = .ok (.addImm x kk) := by
  rw [decodeWord_family7 (nibbleOf_encXK 0x7 x kk), xOf_encXK, kkOf_encXK]

theorem State.setV_unchanged (s : State) (x : Nib) (b : Byte) : Unchanged [.regs] s (s.setV x b) := by
  intro c hc
  cases c <;> simp_all [Same]

theorem State.setV_advance_onlyReg (s : State) (x : Nib) (b : Byte) : OnlyReg x b s (s.setV x b).advance := by
  intro r
  rw [State.advance_getV, State.getV_setV]

theorem State.setV_advance_unchanged (s : State) (x : Nib) (b : Byte) :
    Unchanged [.regs, .pc] s (s.setV x b).advance :=
  ((s.setV_unchanged x b).mono (by simp)).trans ((s.setV x b).advance_unchanged.mono (by simp))

theorem OnlyReg.getV_same {x : Nib} {b : Byte} {s t : State} (h : OnlyReg x b s t) : t.getV x = b :=
  (h x).trans (if_pos rfl)

theorem OnlyReg.getV_other {x : Nib} {b : Byte} {s t : State} (h : OnlyReg x b s t) {r : Nib} (hr : r ≠ x) :
    t.getV r = s.getV r :=
  (h r).trans (if_neg hr)

theorem exec_ldImm (x : Nib) (kk : Byte) (s : State) : exec (.ldImm x kk) s = .next (s.setV x kk).advance := rfl

theorem exec_ldReg (x y : Nib) (s : State) : exec (.ldReg x y) s = .next (s.setV x (s.getV y)).advance := rfl

theorem exec_addImm (x : Nib) (kk : Byte) (s : State) :
    exec (.addImm x kk) s = .next (s.setV x (s.getV x + kk)).advance := rfl

/-- Settles O32: the word is format XK of family 6, and both loads write V[x] alone before PC + 2, VF being written only
as the destination. -/
theorem loadImmediateAndCopyRegister : Obligations.LoadImmediateAndCopyRegister := by
  intro s x y kk
  refine ⟨decodeWord_encXK_six x kk, ?immediate, ?copy⟩
  case immediate =>
    exact ⟨_, exec_ldImm x kk s, s.setV_advance_onlyReg x kk, rfl, s.setV_advance_unchanged x kk⟩
  case copy =>
    exact ⟨_, exec_ldReg x y s, s.setV_advance_onlyReg x (s.getV y), rfl, s.setV_advance_unchanged x (s.getV y)⟩

/-- Settles O33: the word is format XK of family 7, and ADD writes V[x] alone, with the sum of two bytes, which wraps at
256. -/
theorem addImmediateWrapsWithoutFlag : Obligations.AddImmediateWrapsWithoutFlag := by
  intro s x kk
  have reg : OnlyReg x (s.getV x + kk) s (s.setV x (s.getV x + kk)).advance := s.setV_advance_onlyReg x _
  have wraps : ((s.setV x (s.getV x + kk)).advance.getV x).toNat = ((s.getV x).toNat + kk.toNat) % 256 := by
    rw [reg.getV_same, BitVec.toNat_add]
  exact ⟨decodeWord_encXK_seven x kk, _, exec_addImm x kk s, wraps, fun _ => reg.getV_other, rfl,
    s.setV_advance_unchanged x _⟩

end Sys2Proof.Machine
end

section
/-! SUPPORT. LD I, addr (spec/45_index_jump_random.md R170): the decoder on a word of family A, the frame of a write of I,
and the 12-bit operand, which the write of I does not reduce. -/

namespace Sys2Proof.Machine

theorem decodeWord_encA_ten (addr : Addr) : decodeWord (encA 0xA addr) = .ok (.ldI addr) := by
  rw [decodeWord_familyA (nibbleOf_encA 0xA addr), addrOf_encA]

theorem State.setI_unchanged (s : State) (n : Nat) : Unchanged [.index] s (s.setI n) := by
  intro c hc
  cases c <;> simp_all [Same]

theorem State.setI_advance_unchanged (s : State) (n : Nat) : Unchanged [.index, .pc] s (s.setI n).advance :=
  ((s.setI_unchanged n).mono (by simp)).trans ((s.setI n).advance_unchanged.mono (by simp))

theorem State.setI_addr_toNat (s : State) (addr : Addr) : (s.setI addr.toNat).i.toNat = addr.toNat := by
  rw [State.setI_toNat, Nat.mod_eq_of_lt addr.isLt]

theorem exec_ldI (addr : Addr) (s : State) : exec (.ldI addr) s = .next (s.setI addr.toNat).advance := rfl

/-- Settles O38: the word is format A of family 0xA, and LD I is a write of I with the address, already below 4096,
followed by PC + 2. -/
theorem loadIndex : Obligations.LoadIndex := by
  intro s addr
  have index : (s.setI addr.toNat).advance.i.toNat = addr.toNat := by
    rw [State.advance_i, s.setI_addr_toNat]
  exact ⟨decodeWord_encA_ten addr, _, exec_ldI addr s, index, rfl, s.setI_advance_unchanged addr.toNat⟩

end Sys2Proof.Machine
end

section
/-! SUPPORT. Nested CALLs (spec/60_exceptions.md R221; spec/41_flow.md R134): a CALL with a free frame pushes, one with
sixteen frames active raises StackOverflow, and as many CALLs as there are free frames succeed one after the other. -/

namespace Sys2Proof.Machine

theorem State.depth_lt_iff_sp_lt (s : State) : s.depth.val < 16 ↔ s.sp < 15 := by
  rw [State.sp]
  omega

theorem exec_call_of_room {s : State} (room : s.depth.val < 16) (addr : Addr) :
    exec (.call addr) s = .next ((s.push (s.pc + 2) room).setPc (addrOperand addr)) := dif_pos room

theorem exec_call_of_full {s : State} (full : s.sp = 15) (addr : Addr) :
    exec (.call addr) s = .next (s.raise .stackOverflow (encode (.call addr))) :=
  dif_neg (by rw [s.depth_lt_iff_sp_lt, full]; decide)

theorem exec_call_overflows {s : State} (full : s.sp = 15) (addr : Addr) :
    ∃ t, exec (.call addr) s = .next t ∧ TookFault .stackOverflow t.faultWord s t :=
  ⟨_, exec_call_of_full full addr, tookFault_raise s .stackOverflow _⟩

theorem callAll_cons {a : Addr} {s t : State} (h : exec (.call a) s = .next t) (rest : List Addr) :
    callAll (a :: rest) s = callAll rest t := by
  rw [callAll, h]

/-- CALLs into free frames: SP rises by one with each, and FAULT is not touched. -/
theorem callAll_of_room (targets : List Addr) (s : State) (room : s.sp + targets.length ≤ 15) :
    ∃ t, callAll targets s = .next t ∧ t.fault = s.fault ∧ t.sp = s.sp + targets.length := by
  induction targets generalizing s with
  | nil => exact ⟨s, rfl, rfl, by simp⟩
  | cons a rest ih =>
    rw [List.length_cons, Nat.cast_succ] at room ⊢
    have free : s.depth.val < 16 := s.depth_lt_iff_sp_lt.mpr (by omega)
    have sp : ((s.push (s.pc + 2) free).setPc (addrOperand a)).sp = s.sp + 1 := by
      rw [State.setPc_sp, State.sp_push]
    obtain ⟨t, run, fault, top⟩ := ih ((s.push (s.pc + 2) free).setPc (addrOperand a)) (by omega)
    exact ⟨t, (callAll_cons (exec_call_of_room free a) rest).trans run, fault, by omega⟩

/-- Settles O27: sixteen CALLs from SP = -1 have room and end at SP = 15, where a CALL raises StackOverflow. -/
theorem seventeenthNestedCallOverflows : Obligations.SeventeenthNestedCallOverflows := by
  refine ⟨?nested, fun s addr full => exec_call_overflows full addr⟩
  case nested =>
    intro s targets last empty noFault sixteen
    obtain ⟨t, run, fault, sp⟩ := callAll_of_room targets s (by omega)
    have full : t.sp = 15 := by omega
    obtain ⟨u, seventeenth, overflow⟩ := exec_call_overflows full last
    exact ⟨t, u, run, fault.trans noFault, full, seventeenth, overflow⟩

end Sys2Proof.Machine
end

section
/-! SUPPORT. The decoder and the encoder are inverse to each other (spec/30_encoding.md sections 1 to 5): each family's
decoder on a word built from fields, the encoding of what each family decodes to, and the opcode map row by row. -/

namespace Sys2Proof.Laws

/-! ### Decoding a word built from fields -/

theorem decode0_encA {addr : Addr} (cls : addr ≠ 0x0E0) (ret : addr ≠ 0x0EE) :
    decode0 (encA 0x0 addr) = .ok (.sys addr) := by
  have notCls : encA 0x0 addr ≠ 0x00E0 := fun e => cls ((addrOf_encA 0x0 addr).symm.trans (congrArg addrOf e))
  have notRet : encA 0x0 addr ≠ 0x00EE := fun e => ret ((addrOf_encA 0x0 addr).symm.trans (congrArg addrOf e))
  rw [decode0, if_neg notCls, if_neg notRet, addrOf_encA]

/-- Decoding is a left inverse of encoding: outside families 0, 8, E and F the fields alone make the instruction, in
those four the selector that the encoder writes picks its own arm. -/
theorem decodeWord_encode {i : Instr} (wf : i.wf = true) : decodeWord (encode i) = .ok i := by
  cases i
  case cls => rfl
  case ret => rfl
  case sys addr =>
    obtain ⟨cls, ret⟩ : addr ≠ 0x0E0 ∧ addr ≠ 0x0EE := by simpa [Instr.wf] using wf
    exact (decodeWord_family0 (nibbleOf_encA 0x0 addr)).trans (decode0_encA cls ret)
  case jp => exact (decodeWord_family1 (nibbleOf_encA _ _)).trans (by simp)
  case call => exact (decodeWord_family2 (nibbleOf_encA _ _)).trans (by simp)
  case seImm => exact (decodeWord_family3 (nibbleOf_encXK _ _ _)).trans (by simp)
  case sneImm => exact (decodeWord_family4 (nibbleOf_encXK _ _ _)).trans (by simp)
  case seReg => exact (decodeWord_family5 (nibbleOf_encXYN _ _ _ _)).trans (by simp)
  case ldImm => exact (decodeWord_family6 (nibbleOf_encXK _ _ _)).trans (by simp)
  case addImm => exact (decodeWord_family7 (nibbleOf_encXK _ _ _)).trans (by simp)
  case ldReg | orReg | andReg | xorReg | addReg | subReg | shr | subnReg | shl =>
    exact (decodeWord_family8 (nibbleOf_encXYN _ _ _ _)).trans (by simp [decode8])
  case sneReg => exact (decodeWord_family9 (nibbleOf_encXYN _ _ _ _)).trans (by simp)
  case ldI => exact (decodeWord_familyA (nibbleOf_encA _ _)).trans (by simp)
  case jpV0 => exact (decodeWord_familyB (nibbleOf_encA _ _)).trans (by simp)
  case rnd => exact (decodeWord_familyC (nibbleOf_encXK _ _ _)).trans (by simp)
  case drw => exact (decodeWord_familyD (nibbleOf_encXYN _ _ _ _)).trans (by simp)
  case skp | sknp => exact (decodeWord_familyE (nibbleOf_encXK _ _ _)).trans (by simp [decodeE])
  case ldVxDt | ldVxK | ldDtVx | ldStVx | addI | ldF | ldB | storeRegs | loadRegs =>
    exact (decodeWord_familyF (nibbleOf_encXK _ _ _)).trans (by simp [decodeF])

/-- Settles O2: the selector the encoder writes is the one the decoder tests, and the fields come back whole. -/
theorem decodeOfEncodeIsTheInstruction : Obligations.DecodeOfEncodeIsTheInstruction :=
  fun _ wf => decodeWord_encode wf

/-! ### Encoding what a word decodes to -/

theorem encA_of_family {w : Word} {f : Nib} (h : nibbleOf w = f) : encA f (addrOf w) = w := h ▸ encA_fields w

theorem encXK_of_family {w : Word} {f : Nib} (h : nibbleOf w = f) : encXK f (xOf w) (kkOf w) = w := h ▸ encXK_fields w

theorem encXYN_of_family {w : Word} {f : Nib} (h : nibbleOf w = f) : encXYN f (xOf w) (yOf w) (nOf w) = w :=
  h ▸ encXYN_fields w

theorem encXK_of_selector {w : Word} {f : Nib} {kk : Byte} (h : nibbleOf w = f) (sel : kkOf w = kk) :
    encXK f (xOf w) kk = w := sel ▸ encXK_of_family h

theorem encXYN_of_selector {w : Word} {f n : Nib} (h : nibbleOf w = f) (sel : nOf w = n) :
    encXYN f (xOf w) (yOf w) n = w := sel ▸ encXYN_of_family h

/-- An instruction stands for a word: it is well formed and the word is its encoding. -/
def StandsFor (i : Instr) (w : Word) : Prop := i.wf = true ∧ encode i = w

theorem decode0_standsFor {w : Word} {i : Instr} (h : nibbleOf w = 0x0) (d : decode0 w = .ok i) : StandsFor i w := by
  have word := encA_of_family h
  unfold decode0 at d
  split_ifs at d with cls ret <;> cases d
  · exact ⟨rfl, cls.symm⟩
  · exact ⟨rfl, ret.symm⟩
  · have notCls : addrOf w ≠ 0x0E0 := fun e => cls (by rw [← word, e]; rfl)
    have notRet : addrOf w ≠ 0x0EE := fun e => ret (by rw [← word, e]; rfl)
    exact ⟨by rw [Instr.wf, decide_eq_true notCls, decide_eq_true notRet]; rfl, word⟩

theorem decode8_standsFor {w : Word} {i : Instr} (h : nibbleOf w = 0x8) (d : decode8 w = .ok i) : StandsFor i w := by
  unfold decode8 at d
  split_ifs at d with sel sel sel sel sel sel sel sel sel <;> cases d <;> exact ⟨rfl, encXYN_of_selector h sel⟩

theorem decodeE_standsFor {w : Word} {i : Instr} (h : nibbleOf w = 0xE) (d : decodeE w = .ok i) : StandsFor i w := by
  unfold decodeE at d
  split_ifs at d with sel sel <;> cases d <;> exact ⟨rfl, encXK_of_selector h sel⟩

theorem decodeF_standsFor {w : Word} {i : Instr} (h : nibbleOf w = 0xF) (d : decodeF w = .ok i) : StandsFor i w := by
  unfold decodeF at d
  split_ifs at d with sel sel sel sel sel sel sel sel sel <;> cases d <;> exact ⟨rfl, encXK_of_selector h sel⟩

/-- Encoding is a left inverse of decoding, family by family. -/
theorem standsFor_of_decodeWord {w : Word} {i : Instr} (d : decodeWord w = .ok i) : StandsFor i w := by
  rcases nib_cases (nibbleOf w) with h | h | h | h | h | h | h | h | h | h | h | h | h | h | h | h
  · exact decode0_standsFor h (decodeWord_family0 h ▸ d)
  · cases (decodeWord_family1 h).symm.trans d; exact ⟨rfl, encA_of_family h⟩
  · cases (decodeWord_family2 h).symm.trans d; exact ⟨rfl, encA_of_family h⟩
  · cases (decodeWord_family3 h).symm.trans d; exact ⟨rfl, encXK_of_family h⟩
  · cases (decodeWord_family4 h).symm.trans d; exact ⟨rfl, encXK_of_family h⟩
  · cases (decodeWord_family5 h).symm.trans d; exact ⟨rfl, encXYN_of_family h⟩
  · cases (decodeWord_family6 h).symm.trans d; exact ⟨rfl, encXK_of_family h⟩
  · cases (decodeWord_family7 h).symm.trans d; exact ⟨rfl, encXK_of_family h⟩
  · exact decode8_standsFor h (decodeWord_family8 h ▸ d)
  · cases (decodeWord_family9 h).symm.trans d; exact ⟨rfl, encXYN_of_family h⟩
  · cases (decodeWord_familyA h).symm.trans d; exact ⟨rfl, encA_of_family h⟩
  · cases (decodeWord_familyB h).symm.trans d; exact ⟨rfl, encA_of_family h⟩
  · cases (decodeWord_familyC h).symm.trans d; exact ⟨rfl, encXK_of_family h⟩
  · cases (decodeWord_familyD h).symm.trans d; exact ⟨rfl, encXYN_of_family h⟩
  · exact decodeE_standsFor h (decodeWord_familyE h ▸ d)
  · exact decodeF_standsFor h (decodeWord_familyF h ▸ d)

/-- Settles O3: every family's decoder keeps all the fields of the word, the unexamined n among them. -/
theorem encodeOfDecodeIsTheWord : Obligations.EncodeOfDecodeIsTheWord :=
  fun _ _ d => standsFor_of_decodeWord d

/-- Settles O5: the decoder evaluated on each of the words. -/
theorem wordsOfTheSpecDecode : Obligations.WordsOfTheSpecDecode := by
  unfold Obligations.WordsOfTheSpecDecode
  decide

/-! ### The opcode map -/

theorem row_mem_opcodeTable (i : Instr) : i.row ∈ opcodeTable := by
  cases i <;> exact of_decide_eq_true rfl

/-- Every encoded word is of its own row. -/
theorem encode_matches_row : ∀ i : Instr, TableRow.Statement i
  | .cls => TableRow.cls
  | .ret => TableRow.ret
  | .sys a => TableRow.sys a
  | .jp a => TableRow.jp a
  | .call a => TableRow.call a
  | .seImm a b => TableRow.seImm a b
  | .sneImm a b => TableRow.sneImm a b
  | .seReg a b c => TableRow.seReg a b c
  | .ldImm a b => TableRow.ldImm a b
  | .addImm a b => TableRow.addImm a b
  | .ldReg a b => TableRow.ldReg a b
  | .orReg a b => TableRow.orReg a b
  | .andReg a b => TableRow.andReg a b
  | .xorReg a b => TableRow.xorReg a b
  | .addReg a b => TableRow.addReg a b
  | .subReg a b => TableRow.subReg a b
  | .shr a b => TableRow.shr a b
  | .subnReg a b => TableRow.subnReg a b
  | .shl a b => TableRow.shl a b
  | .sneReg a b c => TableRow.sneReg a b c
  | .ldI a => TableRow.ldI a
  | .jpV0 a => TableRow.jpV0 a
  | .rnd a b => TableRow.rnd a b
  | .drw a b c => TableRow.drw a b c
  | .skp a => TableRow.skp a
  | .sknp a => TableRow.sknp a
  | .ldVxDt a => TableRow.ldVxDt a
  | .ldVxK a => TableRow.ldVxK a
  | .ldDtVx a => TableRow.ldDtVx a
  | .ldStVx a => TableRow.ldStVx a
  | .addI a => TableRow.addI a
  | .ldF a => TableRow.ldF a
  | .ldB a => TableRow.ldB a
  | .storeRegs a => TableRow.storeRegs a
  | .loadRegs a => TableRow.loadRegs a

theorem family_of_and_F000 {w : Word} (f : Nib) (h : w &&& 0xF000 = encA f 0) : nibbleOf w = f := by
  simpa using congrArg nibbleOf ((and_F000 w).symm.trans h)

theorem selector_of_and_F00F {w : Word} (f n : Nib) (h : w &&& 0xF00F = encXYN f 0 0 n) :
    nibbleOf w = f ∧ nOf w = n := by
  have fields := (and_F00F w).symm.trans h
  exact ⟨by simpa using congrArg nibbleOf fields, by simpa using congrArg nOf fields⟩

theorem selector_of_and_F0FF {w : Word} (f : Nib) (kk : Byte) (h : w &&& 0xF0FF = encXK f 0 kk) :
    nibbleOf w = f ∧ kkOf w = kk := by
  have fields := (and_F0FF w).symm.trans h
  exact ⟨by simpa using congrArg nibbleOf fields, by simpa using congrArg kkOf fields⟩

/-- A word decodes to an instruction of row r, or r is SYS's row and the word is CLS or RET, which lie in it (R97). -/
def DecodesInRow (w : Word) (r : OpcodeRow) : Prop :=
  ∃ i, decodeWord w = .ok i ∧ (r = i.row ∨ (r = (Instr.sys 0).row ∧ (i = .cls ∨ i = .ret)))

theorem decodesInRow_sys {w : Word} (h : nibbleOf w = 0x0) : DecodesInRow w (Instr.sys 0).row := by
  rw [DecodesInRow, decodeWord_family0 h, decode0]
  split_ifs
  · exact ⟨.cls, rfl, .inr ⟨rfl, .inl rfl⟩⟩
  · exact ⟨.ret, rfl, .inr ⟨rfl, .inr rfl⟩⟩
  · exact ⟨_, rfl, .inl rfl⟩

theorem decodesInRow_selector8 {w : Word} {n : Nib} (i : Instr) (h : nibbleOf w = 0x8 ∧ nOf w = n)
    (arm : nOf w = n → decode8 w = .ok i) : DecodesInRow w i.row :=
  ⟨i, (decodeWord_family8 h.1).trans (arm h.2), .inl rfl⟩

theorem decodesInRow_selectorE {w : Word} {kk : Byte} (i : Instr) (h : nibbleOf w = 0xE ∧ kkOf w = kk)
    (arm : kkOf w = kk → decodeE w = .ok i) : DecodesInRow w i.row :=
  ⟨i, (decodeWord_familyE h.1).trans (arm h.2), .inl rfl⟩

theorem decodesInRow_selectorF {w : Word} {kk : Byte} (i : Instr) (h : nibbleOf w = 0xF ∧ kkOf w = kk)
    (arm : kkOf w = kk → decodeF w = .ok i) : DecodesInRow w i.row :=
  ⟨i, (decodeWord_familyF h.1).trans (arm h.2), .inl rfl⟩

/-- A word that matches a row decodes in it: the mask keeps the family, and the selector where there is one. -/
theorem decodesInRow_of_match {w : Word} (j : Instr) (m : w &&& j.row.mask = j.row.pattern) :
    DecodesInRow w j.row := by
  cases j
  case cls => exact ⟨.cls, by rw [(and_FFFF w).symm.trans m]; rfl, .inl rfl⟩
  case ret => exact ⟨.ret, by rw [(and_FFFF w).symm.trans m]; rfl, .inl rfl⟩
  case sys => exact decodesInRow_sys (family_of_and_F000 0x0 m)
  case jp => exact ⟨_, decodeWord_family1 (family_of_and_F000 0x1 m), .inl rfl⟩
  case call => exact ⟨_, decodeWord_family2 (family_of_and_F000 0x2 m), .inl rfl⟩
  case seImm => exact ⟨_, decodeWord_family3 (family_of_and_F000 0x3 m), .inl rfl⟩
  case sneImm => exact ⟨_, decodeWord_family4 (family_of_and_F000 0x4 m), .inl rfl⟩
  case seReg => exact ⟨_, decodeWord_family5 (family_of_and_F000 0x5 m), .inl rfl⟩
  case ldImm => exact ⟨_, decodeWord_family6 (family_of_and_F000 0x6 m), .inl rfl⟩
  case addImm => exact ⟨_, decodeWord_family7 (family_of_and_F000 0x7 m), .inl rfl⟩
  case ldReg x y =>
    exact decodesInRow_selector8 (.ldReg (xOf w) (yOf w)) (selector_of_and_F00F 0x8 0x0 m)
      fun n => by simp [decode8, n]
  case orReg x y =>
    exact decodesInRow_selector8 (.orReg (xOf w) (yOf w)) (selector_of_and_F00F 0x8 0x1 m)
      fun n => by simp [decode8, n]
  case andReg x y =>
    exact decodesInRow_selector8 (.andReg (xOf w) (yOf w)) (selector_of_and_F00F 0x8 0x2 m)
      fun n => by simp [decode8, n]
  case xorReg x y =>
    exact decodesInRow_selector8 (.xorReg (xOf w) (yOf w)) (selector_of_and_F00F 0x8 0x3 m)
      fun n => by simp [decode8, n]
  case addReg x y =>
    exact decodesInRow_selector8 (.addReg (xOf w) (yOf w)) (selector_of_and_F00F 0x8 0x4 m)
      fun n => by simp [decode8, n]
  case subReg x y =>
    exact decodesInRow_selector8 (.subReg (xOf w) (yOf w)) (selector_of_and_F00F 0x8 0x5 m)
      fun n => by simp [decode8, n]
  case shr x y =>
    exact decodesInRow_selector8 (.shr (xOf w) (yOf w)) (selector_of_and_F00F 0x8 0x6 m)
      fun n => by simp [decode8, n]
  case subnReg x y =>
    exact decodesInRow_selector8 (.subnReg (xOf w) (yOf w)) (selector_of_and_F00F 0x8 0x7 m)
      fun n => by simp [decode8, n]
  case shl x y =>
    exact decodesInRow_selector8 (.shl (xOf w) (yOf w)) (selector_of_and_F00F 0x8 0xE m)
      fun n => by simp [decode8, n]
  case sneReg => exact ⟨_, decodeWord_family9 (family_of_and_F000 0x9 m), .inl rfl⟩
  case ldI => exact ⟨_, decodeWord_familyA (family_of_and_F000 0xA m), .inl rfl⟩
  case jpV0 => exact ⟨_, decodeWord_familyB (family_of_and_F000 0xB m), .inl rfl⟩
  case rnd => exact ⟨_, decodeWord_familyC (family_of_and_F000 0xC m), .inl rfl⟩
  case drw => exact ⟨_, decodeWord_familyD (family_of_and_F000 0xD m), .inl rfl⟩
  case skp =>
    exact decodesInRow_selectorE (.skp (xOf w)) (selector_of_and_F0FF 0xE 0x9E m)
      fun kk => by simp [decodeE, kk]
  case sknp =>
    exact decodesInRow_selectorE (.sknp (xOf w)) (selector_of_and_F0FF 0xE 0xA1 m)
      fun kk => by simp [decodeE, kk]
  case ldVxDt =>
    exact decodesInRow_selectorF (.ldVxDt (xOf w)) (selector_of_and_F0FF 0xF 0x07 m)
      fun kk => by simp [decodeF, kk]
  case ldVxK =>
    exact decodesInRow_selectorF (.ldVxK (xOf w)) (selector_of_and_F0FF 0xF 0x0A m)
      fun kk => by simp [decodeF, kk]
  case ldDtVx =>
    exact decodesInRow_selectorF (.ldDtVx (xOf w)) (selector_of_and_F0FF 0xF 0x15 m)
      fun kk => by simp [decodeF, kk]
  case ldStVx =>
    exact decodesInRow_selectorF (.ldStVx (xOf w)) (selector_of_and_F0FF 0xF 0x18 m)
      fun kk => by simp [decodeF, kk]
  case addI =>
    exact decodesInRow_selectorF (.addI (xOf w)) (selector_of_and_F0FF 0xF 0x1E m)
      fun kk => by simp [decodeF, kk]
  case ldF =>
    exact decodesInRow_selectorF (.ldF (xOf w)) (selector_of_and_F0FF 0xF 0x29 m)
      fun kk => by simp [decodeF, kk]
  case ldB =>
    exact decodesInRow_selectorF (.ldB (xOf w)) (selector_of_and_F0FF 0xF 0x33 m)
      fun kk => by simp [decodeF, kk]
  case storeRegs =>
    exact decodesInRow_selectorF (.storeRegs (xOf w)) (selector_of_and_F0FF 0xF 0x55 m)
      fun kk => by simp [decodeF, kk]
  case loadRegs =>
    exact decodesInRow_selectorF (.loadRegs (xOf w)) (selector_of_and_F0FF 0xF 0x65 m)
      fun kk => by simp [decodeF, kk]

/-- Settles O4: a decoded word is the encoding of its instruction, hence of its row; a word of any row decodes in that
row, and decoding has one answer. -/
theorem decoderAgreesWithTheOpcodeMap : Obligations.DecoderAgreesWithTheOpcodeMap := by
  intro w
  have decodes : ∀ row ∈ opcodeTable, w &&& row.mask = row.pattern → DecodesInRow w row := by
    intro row mem m
    obtain ⟨j, -, rfl⟩ := List.mem_map.1 mem
    exact decodesInRow_of_match j m
  have own : ∀ i, decodeWord w = .ok i → w &&& i.row.mask = i.row.pattern := by
    intro i d
    obtain ⟨-, rfl⟩ := standsFor_of_decodeWord d
    exact encode_matches_row i
  refine ⟨fun i d => ⟨row_mem_opcodeTable i, own i d, fun row mem m => ?only⟩, ?rejects, ?unmatched⟩
  case only =>
    obtain ⟨i', d', row⟩ := decodes row mem m
    cases d.symm.trans d'
    exact row
  case rejects =>
    rintro ⟨r, d⟩ row mem m
    obtain ⟨i, d', -⟩ := decodes row mem m
    cases d.symm.trans d'
  case unmatched =>
    intro none
    cases d : decodeWord w with
    | ok i => exact absurd (own i d) (none i.row (row_mem_opcodeTable i))
    | rejected r => exact ⟨r, rfl⟩

end Sys2Proof.Laws
end

section
/-! SUPPORT. The illegal words of R99 are exactly those the decoder rejects or reads as SYS, the space with no handler
(spec/30_encoding.md section 4). -/

namespace Sys2Proof.Laws

open Sys2Proof.Machine

/-- The decoder has no handler for a word: it rejects it or reads it as SYS. -/
def NoHandler (d : Decoded) : Prop := (∃ r, d = .rejected r) ∨ ∃ a, d = .ok (.sys a)

theorem noHandler_decode0 {w : Word} (h : nibbleOf w = 0x0) :
    NoHandler (decode0 w) ↔ addrOf w ≠ 0x0E0 ∧ addrOf w ≠ 0x0EE := by
  have word := encA_of_family h
  have cls : w = 0x00E0 ↔ addrOf w = 0x0E0 := ⟨fun e => by rw [e]; rfl, fun e => by rw [← word, e]; rfl⟩
  have ret : w = 0x00EE ↔ addrOf w = 0x0EE := ⟨fun e => by rw [e]; rfl, fun e => by rw [← word, e]; rfl⟩
  rw [decode0, ← not_or, ← cls, ← ret]
  split_ifs with c r
  · exact iff_of_false (by simp [NoHandler]) (not_not_intro (.inl c))
  · exact iff_of_false (by simp [NoHandler]) (not_not_intro (.inr r))
  · exact iff_of_true (.inr ⟨_, rfl⟩) (not_or.2 ⟨c, r⟩)

theorem noHandler_decode8 (w : Word) :
    NoHandler (decode8 w) ↔ nOf w ∈ ([0x8, 0x9, 0xA, 0xB, 0xC, 0xD, 0xF] : List Nib) := by
  rcases nib_cases (nOf w) with n | n | n | n | n | n | n | n | n | n | n | n | n | n | n | n <;>
    simp [NoHandler, decode8, n]

theorem noHandler_decodeE (w : Word) : NoHandler (decodeE w) ↔ kkOf w ∉ ([0x9E, 0xA1] : List Byte) := by
  unfold decodeE
  split_ifs <;> simp_all [NoHandler]

theorem noHandler_decodeF (w : Word) :
    NoHandler (decodeF w) ↔ kkOf w ∉ ([0x07, 0x0A, 0x15, 0x18, 0x1E, 0x29, 0x33, 0x55, 0x65] : List Byte) := by
  unfold decodeF
  split_ifs <;> simp_all [NoHandler]

/-- R99's table, family by family: no other family has a word without a handler. -/
theorem illegalWord_iff_noHandler (w : Word) : IllegalWord w ↔ NoHandler (decodeWord w) := by
  unfold IllegalWord
  rcases nib_cases (nibbleOf w) with h | h | h | h | h | h | h | h | h | h | h | h | h | h | h | h
  · rw [decodeWord_family0 h, noHandler_decode0 h]; simp [h]
  · simp [NoHandler, decodeWord_family1 h, h]
  · simp [NoHandler, decodeWord_family2 h, h]
  · simp [NoHandler, decodeWord_family3 h, h]
  · simp [NoHandler, decodeWord_family4 h, h]
  · simp [NoHandler, decodeWord_family5 h, h]
  · simp [NoHandler, decodeWord_family6 h, h]
  · simp [NoHandler, decodeWord_family7 h, h]
  · rw [decodeWord_family8 h, noHandler_decode8]; simp [h]
  · simp [NoHandler, decodeWord_family9 h, h]
  · simp [NoHandler, decodeWord_familyA h, h]
  · simp [NoHandler, decodeWord_familyB h, h]
  · simp [NoHandler, decodeWord_familyC h, h]
  · simp [NoHandler, decodeWord_familyD h, h]
  · rw [decodeWord_familyE h, noHandler_decodeE]; simp [h]
  · rw [decodeWord_familyF h, noHandler_decodeF]; simp [h]

theorem illegalWord_of_rejected {w : Word} {r : DecodeReject} (d : decodeWord w = .rejected r) : IllegalWord w :=
  (illegalWord_iff_noHandler w).2 (.inl ⟨r, d⟩)

theorem illegalWord_of_sys {w : Word} {a : Addr} (d : decodeWord w = .ok (.sys a)) : IllegalWord w :=
  (illegalWord_iff_noHandler w).2 (.inr ⟨a, d⟩)

end Sys2Proof.Laws
end

section
/-! SUPPORT. The frame of each update of the state, once, and how frames compose: an instruction or operation made of
several updates changes at most the parts that one of them changes. -/

namespace Sys2Proof.Machine

theorem Unchanged.comp {l l' : List Component} {s t u : State} (h : Unchanged l s t) (h' : Unchanged l' t u) :
    Unchanged (l ++ l') s u := fun c hc =>
  (h c fun m => hc (List.mem_append_left l' m)).trans (h' c fun m => hc (List.mem_append_right l m))

theorem State.setVF_unchanged (s : State) (f : Bool) : Unchanged [.regs] s (s.setVF f) := s.setV_unchanged 0xF _

theorem State.setVFlag_unchanged (s : State) (x : Nib) (b : Byte) (f : Bool) :
    Unchanged [.regs] s (s.setVFlag x b f) := (s.setV_unchanged x b).trans ((s.setV x b).setVF_unchanged f)

theorem State.skipIf_unchanged (s : State) (b : Bool) : Unchanged [.pc] s (s.skipIf b) := s.setPc_unchanged _

theorem State.setDt_unchanged (s : State) (b : Byte) : Unchanged [.dt] s (s.setDt b) := by
  intro c hc
  cases c <;> simp_all [Same]

theorem State.setSt_unchanged (s : State) (b : Byte) : Unchanged [.st] s (s.setSt b) := by
  intro c hc
  cases c <;> simp_all [Same]

theorem State.setFb_unchanged (s : State) (g : Grid) : Unchanged [.fb] s (s.setFb g) := by
  intro c hc
  cases c <;> simp_all [Same]

theorem State.pop_unchanged (s : State) : Unchanged [.depth] s s.pop := by
  intro c hc
  cases c <;> simp_all [Same]

theorem State.push_unchanged (s : State) (a : Word) (room : s.depth.val < 16) :
    Unchanged [.depth, .stack] s (s.push a room) := by
  intro c hc
  cases c <;> simp_all [Same]

theorem State.drawn_unchanged (s : State) : Unchanged [.draws] s s.drawn := by
  intro c hc
  cases c <;> simp_all [Same]

theorem State.awaitKey_unchanged (s : State) (x : Nib) : Unchanged [.waiting] s (s.awaitKey x) := by
  intro c hc
  cases c <;> simp_all [Same]

theorem State.writeByte_unchanged (s : State) (a : Nat) (b : Byte) : Unchanged [.mem] s (s.writeByte a b) := by
  intro c hc
  cases c <;> simp_all [Same]

theorem State.storeBlock_unchanged (s : State) (base n : Nat) : Unchanged [.mem] s (s.storeBlock base n) := by
  intro c hc
  cases c <;> simp_all [Same]

theorem State.loadBlock_unchanged (s : State) (base n : Nat) : Unchanged [.regs] s (s.loadBlock base n) := by
  intro c hc
  cases c <;> simp_all [Same]

theorem State.blockIndex_unchanged (s : State) (base : Nat) (x : Nib) : Unchanged [.index] s (s.blockIndex base x) := by
  intro c hc
  cases c <;> simp_all [Same]

theorem State.recordHistory_unchanged (s : State) (w : Word) : Unchanged [.history] s (s.recordHistory w) := by
  intro c hc
  cases c <;> simp_all [Same]

theorem State.raise_unchanged (s : State) (kind : FaultKind) (w : Word) : Unchanged [.faulting] s (s.raise kind w) := by
  obtain ⟨-, -, -, frame⟩ := tookFault_raise s kind w
  exact frame

theorem State.tickTimers_unchanged (s : State) : Unchanged [.dt, .st] s s.tickTimers := by
  intro c hc
  cases c <;> simp_all [Same]

theorem State.setDown_unchanged (s : State) (k : Nib) (b : Bool) : Unchanged [.keypad] s (s.setDown k b) := by
  intro c hc
  cases c <;> simp_all [Same]

theorem State.memClear_unchanged (s : State) : Unchanged [.mem] s s.memClear := by
  intro c hc
  cases c <;> simp_all [Same]

theorem State.cpuReset_unchanged (s : State) :
    Unchanged [.regs, .index, .pc, .depth, .stack, .dt, .st, .waiting, .faulting, .history] s s.cpuReset := by
  intro c hc
  cases c <;> simp_all [Same]

/-- `Memory.load` within memory: the bytes stored from base on. -/
def State.loaded (s : State) (bytes : List Byte) (base : Nat) : State :=
  { s with mem := Memory.store s.cfg s.mem base bytes }

theorem State.loaded_unchanged (s : State) (bytes : List Byte) (base : Nat) :
    Unchanged [.mem] s (s.loaded bytes base) := by
  intro c hc
  cases c <;> simp_all [Same, State.loaded, State.getV, State.stackAt, State.sp, State.isDown, State.wasDown]

/-- The key-wait resolution with key k: the three writes of R236. -/
def State.keyTaken (s : State) (k : Nib) : State :=
  { s.setV s.keyTarget (k.setWidth 8) with wait := false, pc := s.pc + 2 }

theorem State.keyTaken_unchanged (s : State) (k : Nib) :
    Unchanged [.regs, .pc, .waiting] s (s.keyTaken k) := by
  intro c hc
  cases c <;> simp_all [Same, State.keyTaken, State.readByte, State.stackAt, State.sp, State.isDown, State.wasDown]

end Sys2Proof.Machine
end

section
/-! SUPPORT. What one step of the whole block can do, said once (spec/40_step_cycle.md R110 to R120;
spec/60_exceptions.md R238): `StepTo` lists the cases, `stepTo_of_step` says that they are all and `step_of_stepTo`
that each is one. -/

namespace Sys2Proof.Machine

/-! ### The run state -/

theorem State.runState_eq_running {s : State} : s.runState = .running ↔ s.fault = false ∧ s.wait = false := by
  unfold State.runState
  cases s.fault <;> cases s.wait <;> simp

theorem State.runState_of_fault {s : State} (h : s.fault = true) : s.runState = .faulted := if_pos h

theorem State.runState_of_wait {s : State} (hf : s.fault = false) (hw : s.wait = true) :
    s.runState = .awaitingKey s.keyTarget := by simp [State.runState, hf, hw]

/-- The run state is made of FAULT, WAIT and KEY_TARGET. -/
theorem State.runState_congr {s t : State} (hf : t.fault = s.fault) (hw : t.wait = s.wait)
    (hk : t.keyTarget = s.keyTarget) : t.runState = s.runState := by simp [State.runState, hf, hw, hk]

/-! ### The gates of `step()` -/

theorem cycle_of_wait {s : State} (hw : s.wait = true) : cycle s = .next s := by
  cases hf : s.fault <;> simp [cycle, hf, hw]

theorem cycle_of_running {s : State} (running : s.runState = .running) :
    cycle s = executeWord s.fetchWord (s.recordHistory s.fetchWord) := by
  obtain ⟨hf, hw⟩ := State.runState_eq_running.1 running
  simp [cycle, hf, hw]

theorem step_of_gated {s : State} (cpu : s.nextAction = .step) (gate : s.runState ≠ .running) :
    step s = .next s.turnTaken := by
  rw [step_of_step cpu]
  cases hf : s.fault
  · cases hw : s.wait
    · exact absurd (State.runState_eq_running.2 ⟨hf, hw⟩) gate
    · exact cycle_of_wait hw
  · exact cycle_of_fault hf

/-- The fetched word in the history and the operation taken off the schedule: the state a handler runs in (R113). -/
def State.fetched (s : State) : State := s.turnTaken.recordHistory s.fetchWord

theorem State.fetched_unchanged (s : State) : Unchanged [.schedule, .history] s s.fetched :=
  s.turnTaken_unchanged.comp (s.turnTaken.recordHistory_unchanged s.fetchWord)

theorem step_of_running {s : State} (cpu : s.nextAction = .step) (running : s.runState = .running) :
    step s = executeWord s.fetchWord s.fetched := (step_of_step cpu).trans (cycle_of_running running)

theorem State.Executes.cpu {s : State} {i : Instr} (h : s.Executes i) : s.nextAction = .step := h.1

theorem State.Executes.running {s : State} {i : Instr} (h : s.Executes i) : s.runState = .running := h.2.1

theorem step_of_executes {s : State} {i : Instr} (h : s.Executes i) : step s = exec i s.fetched := by
  obtain ⟨cpu, running, d⟩ := h
  rw [step_of_running cpu running, executeWord, d]

theorem step_of_rejected {s : State} {r : DecodeReject} (cpu : s.nextAction = .step) (running : s.runState = .running)
    (d : decodeWord s.fetchWord = .rejected r) : step s = .next (s.fetched.raise .unknownOpcode s.fetchWord) := by
  rw [step_of_running cpu running, executeWord, d]

/-! ### The cases of a step -/

/-- What a step from s can answer, operation by operation. -/
inductive StepTo (s : State) : State → Prop
  | gated (cpu : s.nextAction = .step) (gate : s.runState ≠ .running) : StepTo s s.turnTaken
  | executed {i : Instr} {t : State} (runs : s.Executes i) (run : exec i s.fetched = .next t) : StepTo s t
  | rejected {r : DecodeReject} (cpu : s.nextAction = .step) (running : s.runState = .running)
      (d : decodeWord s.fetchWord = .rejected r) : StepTo s (s.fetched.raise .unknownOpcode s.fetchWord)
  | ticked (host : s.nextAction = .tickTimers) : StepTo s s.turnTaken.tickTimers
  | keySet {k : Nib} {b : Bool} (host : s.nextAction = .setDown k b) : StepTo s (s.turnTaken.setDown k b)
  | noKey {ready : Bool} (host : s.nextAction = .resolveKey ready) (waiting : s.wait = true)
      (none : s.debouncedKey ready = none) : StepTo s s.turnTaken
  | keyTaken {ready : Bool} {k : Nib} (host : s.nextAction = .resolveKey ready) (waiting : s.wait = true)
      (key : s.debouncedKey ready = some k) : StepTo s (s.turnTaken.keyTaken k)
  | reset (host : s.nextAction = .reset) : StepTo s s.turnTaken.cpuReset
  | memCleared (host : s.nextAction = .memClear) : StepTo s s.turnTaken.memClear
  | loaded {bytes : List Byte} {base : Nat} (host : s.nextAction = .memLoad bytes base)
      (fits : base + bytes.length ≤ 4096) : StepTo s (s.turnTaken.loaded bytes base)
  | fbCleared (host : s.nextAction = .fbClear) : StepTo s s.turnTaken.fbClear

theorem memLoad_of_fits {s : State} {bytes : List Byte} {base : Nat} (fits : base + bytes.length ≤ 4096) :
    s.memLoad bytes base = .next (s.loaded bytes base) := if_pos fits

theorem memLoad_of_past {s : State} {bytes : List Byte} {base : Nat} (past : 4096 < base + bytes.length) :
    s.memLoad bytes base = .refused .loadPastEnd := if_neg (by omega)

theorem step_of_stepTo {s t : State} (h : StepTo s t) : step s = .next t := by
  cases h with
  | gated cpu gate => exact step_of_gated cpu gate
  | executed runs run => exact (step_of_executes runs).trans run
  | rejected cpu running d => exact step_of_rejected cpu running d
  | ticked host | keySet host | reset host | memCleared host | fbCleared host => rw [step_eq, host, perform]
  | noKey host waiting none =>
    rw [step_eq, host]
    exact State.resolveKey_none (s := s.turnTaken) waiting none
  | keyTaken host waiting key =>
    rw [step_eq, host]
    exact State.resolveKey_some (s := s.turnTaken) waiting key
  | loaded host fits =>
    rw [step_eq, host]
    exact memLoad_of_fits fits

theorem stepTo_of_step {s t : State} (h : step s = .next t) : StepTo s t := by
  cases a : s.nextAction with
  | step =>
    by_cases running : s.runState = .running
    · cases d : decodeWord s.fetchWord with
      | ok i => exact .executed ⟨a, running, d⟩ ((step_of_executes ⟨a, running, d⟩).symm.trans h)
      | rejected r => cases (step_of_rejected a running d).symm.trans h; exact .rejected a running d
    · cases (step_of_gated a running).symm.trans h
      exact .gated a running
  | resolveKey ready =>
    rw [step_eq, a] at h
    cases waiting : s.wait with
    | false => cases (State.resolveKey_refused (s := s.turnTaken) ready waiting).symm.trans h
    | true =>
      cases key : s.debouncedKey ready with
      | none =>
        cases (State.resolveKey_none (s := s.turnTaken) waiting key).symm.trans h
        exact .noKey a waiting key
      | some k =>
        cases (State.resolveKey_some (s := s.turnTaken) waiting key).symm.trans h
        exact .keyTaken a waiting key
  | memLoad bytes base =>
    rw [step_eq, a] at h
    by_cases fits : base + bytes.length ≤ 4096
    · cases (memLoad_of_fits (s := s.turnTaken) fits).symm.trans h
      exact .loaded a fits
    · cases (memLoad_of_past (s := s.turnTaken) (by omega)).symm.trans h
  | tickTimers => rw [step_eq, a] at h; cases h; exact .ticked a
  | setDown => rw [step_eq, a] at h; cases h; exact .keySet a
  | reset => rw [step_eq, a] at h; cases h; exact .reset a
  | memClear => rw [step_eq, a] at h; cases h; exact .memCleared a
  | fbClear => rw [step_eq, a] at h; cases h; exact .fbCleared a

/-- Settles O15: WAIT = 1 is a closed gate. -/
theorem awaitingStepChangesNothing : Obligations.AwaitingStepChangesNothing := by
  intro s cpu _ waiting
  have gate : s.runState ≠ .running := fun running => by simp [(State.runState_eq_running.1 running).2] at waiting
  exact ⟨step_of_gated cpu gate, s.turnTaken_unchanged, turnTaken_of_empty⟩

/-- Settles O16: with both gates open the decoded instruction runs in the state that has its word in the history. -/
theorem stepRunsTheDecodedInstruction : Obligations.StepRunsTheDecodedInstruction :=
  fun _ _ cpu hf hw d => step_of_executes ⟨cpu, State.runState_eq_running.2 ⟨hf, hw⟩, d⟩

/-! ### Refusals and the history -/

/-- Every operation answers a next state, but for the two that the host may not ask for. -/
theorem step_answers (s : State) :
    (∃ t, step s = .next t) ∨
    (∃ ready, s.nextAction = .resolveKey ready ∧ s.wait = false ∧ step s = .refused .notAwaitingKey) ∨
    (∃ bytes base, s.nextAction = .memLoad bytes base ∧ 4096 < base + bytes.length ∧
      step s = .refused .loadPastEnd) := by
  cases a : s.nextAction with
  | step => exact .inl ((step_of_step a).symm ▸ cycle_answers s.turnTaken)
  | resolveKey ready =>
    cases waiting : s.wait with
    | false => exact .inr (.inl ⟨ready, rfl, rfl, by rw [step_eq, a]; exact State.resolveKey_refused ready waiting⟩)
    | true =>
      cases key : s.debouncedKey ready with
      | none => exact .inl ⟨_, step_of_stepTo (.noKey a waiting key)⟩
      | some k => exact .inl ⟨_, step_of_stepTo (.keyTaken a waiting key)⟩
  | memLoad bytes base =>
    by_cases fits : base + bytes.length ≤ 4096
    · exact .inl ⟨_, step_of_stepTo (.loaded a fits)⟩
    · have past : 4096 < base + bytes.length := by omega
      exact .inr (.inr ⟨bytes, base, rfl, past, by rw [step_eq, a]; exact memLoad_of_past past⟩)
  | tickTimers => exact .inl ⟨_, step_of_stepTo (.ticked a)⟩
  | setDown => exact .inl ⟨_, step_of_stepTo (.keySet a)⟩
  | reset => exact .inl ⟨_, step_of_stepTo (.reset a)⟩
  | memClear => exact .inl ⟨_, step_of_stepTo (.memCleared a)⟩
  | fbClear => exact .inl ⟨_, step_of_stepTo (.fbCleared a)⟩

/-- Settles O19: the three kinds of answer exclude each other, and the two refusals name their operation. -/
theorem onlyHostMisuseIsRefused : Obligations.OnlyHostMisuseIsRefused := by
  intro s
  rcases step_answers s with ⟨t, e⟩ | ⟨ready, a, waiting, e⟩ | ⟨bytes, base, a, past, e⟩
  · refine ⟨by simp [e], fun r => ⟨by simp [e], ?_⟩⟩
    rintro (⟨⟨ready, a⟩, waiting, -⟩ | ⟨bytes, base, a, past, -⟩) <;> rw [step_eq, a] at e
    · cases (State.resolveKey_refused (s := s.turnTaken) ready waiting).symm.trans e
    · cases (memLoad_of_past (s := s.turnTaken) past).symm.trans e
  · exact ⟨by simp [e], fun r => by simpa [e, a, waiting] using eq_comm⟩
  · exact ⟨by simp [e], fun r => by simpa [e, a, past] using eq_comm⟩

/-- A running step: the decoded instruction's effect, or UnknownOpcode, in both cases after the record (R113, R114). -/
theorem step_running_cases {s t : State} (cpu : s.nextAction = .step) (running : s.runState = .running)
    (h : step s = .next t) :
    (∃ i, decodeWord s.fetchWord = .ok i ∧ exec i s.fetched = .next t) ∨
    (∃ r, decodeWord s.fetchWord = .rejected r ∧ t = s.fetched.raise .unknownOpcode s.fetchWord) := by
  cases d : decodeWord s.fetchWord with
  | ok i => exact .inl ⟨i, rfl, (step_of_executes ⟨cpu, running, d⟩).symm.trans h⟩
  | rejected r => cases (step_of_rejected cpu running d).symm.trans h; exact .inr ⟨r, rfl, rfl⟩

/-- Settles O18: the record is made before the handler runs, and no handler writes the history. -/
theorem executingStepRecordsItsWord : Obligations.ExecutingStepRecordsItsWord := by
  intro s t cpu hf hw h
  have recorded : t.hist = s.fetched.hist ∧ t.histCount = s.fetched.histCount := by
    rcases step_running_cases cpu (State.runState_eq_running.2 ⟨hf, hw⟩) h with ⟨i, -, run⟩ | ⟨r, -, rfl⟩
    · obtain ⟨-, -, -, hist, count, -⟩ := exec_keeps run
      exact ⟨hist, count⟩
    · exact ⟨rfl, rfl⟩
  obtain ⟨hist, count⟩ := recorded
  rw [hist, count]
  exact ⟨s.turnTaken.recordHistory_newest _, s.turnTaken.recordHistory_older _, rfl⟩

/-! ### The machine's own run (R117) -/

theorem run_succ {k : Nat} {s t : State} (h : step s = .next t) :
    Host.Core.run Sys2Proof.core (k + 1) s = Host.Core.run Sys2Proof.core k t := by
  have answer : Sys2Proof.core.step s = .next t := h
  simp only [Host.Core.run, answer]

theorem runCycles_succ {k : Nat} {s t : State} (h : cycle s = .next t) :
    State.runCycles (k + 1) s = State.runCycles k t := by
  rw [State.runCycles, h]

theorem run_eq_runCycles (k : Nat) (s : State) (h : s.schedule = []) :
    Host.Core.run Sys2Proof.core k s = State.runCycles k s := by
  induction k generalizing s with
  | zero => rfl
  | succ k ih =>
    obtain ⟨t, cyc⟩ := cycle_answers s
    have one : step s = .next t := by rw [step_of_step (nextAction_of_empty h), turnTaken_of_empty h, cyc]
    have empty : t.schedule = [] := (perform_schedule (a := .step) [] cyc).2.trans h
    rw [run_succ one, runCycles_succ cyc, ih t empty]

/-- With an operation scheduled first, a step performs it and leaves the rest of the schedule. -/
theorem step_scheduled {a : Action} {s t : State} (rest : List Action) (h : perform a s = .next t) :
    step { s with schedule := a :: rest } = .next { t with schedule := rest } := (perform_schedule rest h).1

theorem isRun_schedule {host : Nat → Action} {s : Nat → State} (run : IsRun host s) (k : Nat) :
    (s k).schedule = (s 0).schedule := by
  induction k with
  | zero => rfl
  | succ k ih => exact (perform_schedule [] (run k)).2.trans ih

/-- From moment n on: k scheduled operations of the host are its next k moments. -/
theorem run_scheduled {host : Nat → Action} {s : Nat → State} (run : IsRun host s) (k n : Nat) :
    Host.Core.run Sys2Proof.core k { s n with schedule := (List.range k).map fun j => host (n + j) } =
      .next { s (n + k) with schedule := [] } := by
  induction k generalizing n with
  | zero => rfl
  | succ k ih =>
    have rest : (List.range (k + 1)).map (fun j => host (n + j)) =
        host n :: (List.range k).map fun j => host (n + 1 + j) := by
      rw [List.range_succ_eq_map, List.map_cons, List.map_map]
      exact congrArg _ (List.map_congr_left fun j _ => congrArg host (by simp only [Nat.succ_eq_add_one]; omega))
    rw [rest, run_succ (step_scheduled _ (run n)), ih (n + 1), show n + 1 + k = n + (k + 1) by omega]

/-- Settles O20: with an empty schedule every step is one cycle; with the host's operations scheduled the k-th step
performs the k-th of them. -/
theorem coreRunIsRunOfCycles : Obligations.CoreRunIsRunOfCycles := by
  refine ⟨run_eq_runCycles, fun host s k run empty => ?_⟩
  have reached := run_scheduled run k 0
  simp only [Nat.zero_add] at reached
  have last : (s k).schedule = [] := (isRun_schedule run k).trans empty
  rw [reached, ← last]

end Sys2Proof.Machine
end

section
/-! SUPPORT. What an instruction does to memory's form, the index, the grid and the fault registers, and from that the two
invariants that every step keeps (spec/10_state.md R24, R31, R32, R35; spec/60_exceptions.md R220 to R224). -/

namespace Sys2Proof.Machine

open Sys2Proof.Laws

/-! ### Taking a fault -/

theorem State.depth_eq_zero_iff_sp (s : State) : s.depth.val = 0 ↔ s.sp = -1 := by
  rw [State.sp]
  omega

theorem State.sp_of_no_room {s : State} (h : ¬s.depth.val < 16) : s.sp = 15 := by
  rw [State.sp]
  omega

theorem exec_ret_of_frame {s : State} (frame : s.sp ≠ -1) : exec .ret s = .next (s.setPc s.topFrame).pop :=
  if_neg (mt s.depth_eq_zero_iff_sp.1 frame)

theorem exec_ret_of_empty {s : State} (empty : s.sp = -1) :
    exec .ret s = .next (s.raise .stackUnderflow (encode .ret)) :=
  if_pos (s.depth_eq_zero_iff_sp.2 empty)

theorem exec_sys (addr : Addr) (s : State) :
    exec (.sys addr) s = .next (s.raise .unknownOpcode (encode (.sys addr))) := rfl

/-- When an instruction takes a fault of a kind: R220's table. -/
def FaultCondition (i : Instr) (s : State) : FaultKind → Prop
  | .none => False
  | .stackOverflow => (∃ a, i = .call a) ∧ s.sp = 15
  | .stackUnderflow => i = .ret ∧ s.sp = -1
  | .unknownOpcode => ∃ a, i = .sys a

/-- An instruction leaves the fault registers, or it does nothing but take a fault with its own word. -/
theorem exec_faults {i : Instr} {s t : State} (h : exec i s = .next t) :
    Same .faulting s t ∨ ∃ kind, FaultCondition i s kind ∧ t = s.raise kind (encode i) := by
  obtain ⟨-, -, -, -, -, -, -, -, -, same | rfl | ⟨a, rfl⟩ | ⟨a, rfl⟩, -⟩ := exec_writes h
  · exact .inl same
  · by_cases empty : s.sp = -1
    · cases (exec_ret_of_empty empty).symm.trans h
      exact .inr ⟨.stackUnderflow, ⟨rfl, empty⟩, rfl⟩
    · cases (exec_ret_of_frame empty).symm.trans h
      exact .inl ⟨rfl, rfl, rfl⟩
  · by_cases room : s.depth.val < 16
    · cases (exec_call_of_room room a).symm.trans h
      exact .inl ⟨rfl, rfl, rfl⟩
    · have full := State.sp_of_no_room room
      cases (exec_call_of_full full a).symm.trans h
      exact .inr ⟨.stackOverflow, ⟨⟨a, rfl⟩, full⟩, rfl⟩
  · cases (exec_sys a s).symm.trans h
    exact .inr ⟨.unknownOpcode, ⟨a, rfl⟩, rfl⟩

/-! ### What an instruction keeps of the invariant -/

theorem exec_wf {i : Instr} {s t : State} (h : exec i s = .next t) (w : Memory.wf s.cfg s.mem = true) :
    Memory.wf t.cfg t.mem = true := by
  obtain ⟨cfg, -⟩ := exec_keeps h
  obtain ⟨mem | ⟨x, rfl | rfl⟩, -⟩ := exec_writes h
  · rwa [cfg, mem]
  · cases h
    exact Memory.wf_write (Memory.wf_write (Memory.wf_write w _ _) _ _) _ _
  · cases h
    simpa using s.storeBlock_wf s.base (x.toNat + 1) w

theorem State.setI_lt (s : State) (n : Nat) : (s.setI n).i.toNat < 4096 := by
  rw [State.setI_toNat]
  exact Nat.mod_lt _ (by decide)

theorem State.blockIndex_lt {s : State} (lt : s.i.toNat < 4096) (base : Nat) (x : Nib) :
    (s.blockIndex base x).i.toNat < 4096 := by
  unfold State.blockIndex
  split
  · exact s.setI_lt _
  · exact lt

theorem exec_index_lt {i : Instr} {s t : State} (h : exec i s = .next t) (lt : s.i.toNat < 4096) :
    t.i.toNat < 4096 := by
  obtain ⟨-, -, -, -, -, same | ⟨a, rfl⟩ | ⟨x, rfl | rfl | rfl | rfl⟩, -⟩ := exec_writes h
  · rwa [same]
  · cases h; exact s.setI_lt _
  · cases h; exact s.setI_lt _
  · cases h; exact s.setI_lt _
  · cases h; exact State.blockIndex_lt (by simpa using lt) _ _
  · cases h; exact State.blockIndex_lt (by simpa using lt) _ _

theorem exec_shaped {i : Instr} {s t : State} (h : exec i s = .next t)
    (shaped : Grid.shaped s.fb s.cfg.fbW s.cfg.fbH = true) : Grid.shaped t.fb t.cfg.fbW t.cfg.fbH = true := by
  obtain ⟨cfg, -⟩ := exec_keeps h
  rw [cfg]
  obtain ⟨-, same | rfl | ⟨x, y, n, rfl⟩, -⟩ := exec_writes h
  · rwa [same]
  · cases h; exact s.fbClear_shaped
  · cases h
    rw [State.advance_fb, State.setVF_fb, State.setFb_fb, State.drawResult, plotRows_eq]
    exact togglePixels_shaped _ shaped

/-- The fault registers after an instruction that ran with no fault recorded: consistent, and never beside WAIT = 1. -/
theorem exec_faultRegisters {i : Instr} {s t : State} (h : exec i s = .next t) (hf : s.fault = false)
    (hw : s.wait = false) (kind : s.fault = false ↔ s.faultKind = .none) (word : s.fault = false → s.faultWord = 0) :
    (t.fault = false ↔ t.faultKind = .none) ∧ (t.fault = false → t.faultWord = 0) ∧
      ¬(t.wait = true ∧ t.fault = true) := by
  rcases exec_faults h with ⟨fault', kind', word'⟩ | ⟨k, cond, rfl⟩
  · rw [fault', kind', word']
    exact ⟨kind, word, by simp [hf]⟩
  · have notNone : k ≠ .none := by rintro rfl; exact cond
    exact ⟨by simp [notNone], by simp, by simp [hw]⟩

theorem exec_inv {i : Instr} {s t : State} (h : exec i s = .next t) (running : s.runState = .running) (inv : s.Inv) :
    t.Inv := by
  obtain ⟨wf, lt, w, ht, shaped, kind, word, -⟩ := inv
  obtain ⟨hf, hw⟩ := State.runState_eq_running.1 running
  obtain ⟨cfg, -⟩ := exec_keeps h
  exact ⟨exec_wf h wf, exec_index_lt h lt, cfg ▸ w, cfg ▸ ht, exec_shaped h shaped,
    exec_faultRegisters h hf hw kind word⟩

/-- Settles O12: case by case, an operation rewrites only some clauses of the invariant, and each of those by a law of
the part it is about. -/
theorem stepKeepsTheInvariant : Obligations.StepKeepsTheInvariant := by
  intro s t inv h
  have whole := inv
  obtain ⟨wf, lt, w, ht, shaped, kind, word, apart⟩ := inv
  cases stepTo_of_step h with
  | gated | ticked | keySet | noKey => exact whole
  | executed runs run => exact exec_inv (s := s.fetched) run runs.running whole
  | rejected cpu running d =>
    obtain ⟨-, hw⟩ := State.runState_eq_running.1 running
    exact ⟨wf, lt, w, ht, shaped, by simp, by simp, fun both => Bool.noConfusion (hw.symm.trans both.1)⟩
  | keyTaken => exact ⟨wf, lt, w, ht, shaped, kind, word, fun both => Bool.noConfusion both.1⟩
  | reset => exact ⟨wf, by simp, w, ht, shaped, by simp, by simp, by simp⟩
  | memCleared => exact ⟨Memory.wf_cleared, lt, w, ht, shaped, kind, word, apart⟩
  | loaded => exact ⟨Memory.wf_store wf _ _, lt, w, ht, shaped, kind, word, apart⟩
  | fbCleared => exact ⟨wf, lt, w, ht, Grid.shaped_dark _ _, kind, word, apart⟩

/-! ### The fault record -/

/-- The record is about the fault registers, SP and the history only. -/
theorem State.FaultRecord.of_unchanged {l : List Component} {s t : State} (record : s.FaultRecord)
    (frame : Unchanged l s t) (hl : .faulting ∉ l ∧ .depth ∉ l ∧ .history ∉ l) : t.FaultRecord := by
  obtain ⟨fault, kind, word⟩ : Same .faulting s t := frame _ hl.1
  have sp : t.sp = s.sp := frame _ hl.2.1
  obtain ⟨hist, count⟩ : Same .history s t := frame _ hl.2.2
  intro faulted
  rw [kind, word, sp, hist, count]
  exact record (fault ▸ faulted)

/-- A fault taken in the state where the word has just been recorded, under R220's condition for its kind. -/
theorem faultRecord_raise {s : State} {kind : FaultKind}
    (cond : (kind = .stackOverflow ∧ nibbleOf s.fetchWord = 0x2 ∧ s.sp = 15) ∨
      (kind = .stackUnderflow ∧ s.fetchWord = 0x00EE ∧ s.sp = -1) ∨
      (kind = .unknownOpcode ∧ IllegalWord s.fetchWord)) : (s.fetched.raise kind s.fetchWord).FaultRecord := by
  have counted : 1 ≤ (s.fetched.raise kind s.fetchWord).histCount.val := by
    simp only [State.fetched, State.raise_histCount, State.recordHistory_histCount]
    omega
  exact fun _ => ⟨⟨rfl, counted⟩, cond⟩

/-- Settles O13: a fault is taken by a running step only, just after its word was recorded; no other operation but reset,
which clears FAULT, writes what the record is about. -/
theorem stepKeepsTheFaultRecord : Obligations.StepKeepsTheFaultRecord := by
  intro s t record h
  have taken : s.turnTaken.FaultRecord := record
  cases stepTo_of_step h with
  | gated | noKey => exact taken
  | executed runs run =>
    obtain ⟨-, running, d⟩ := runs
    obtain ⟨hf, -⟩ := State.runState_eq_running.1 running
    obtain ⟨-, word⟩ := standsFor_of_decodeWord d
    rcases exec_faults run with ⟨fault, -⟩ | ⟨kind, cond, rfl⟩
    · have noFault : t.fault = false := fault.trans hf
      exact fun faulted => by simp [noFault] at faulted
    · rw [word]
      refine faultRecord_raise ?_
      match kind, cond with
      | .stackOverflow, ⟨⟨a, call⟩, full⟩ =>
        exact .inl ⟨rfl, by rw [← word, call]; exact nibbleOf_encA 0x2 a, full⟩
      | .stackUnderflow, ⟨ret, empty⟩ => exact .inr (.inl ⟨rfl, by rw [← word, ret]; rfl, empty⟩)
      | .unknownOpcode, ⟨a, sys⟩ => exact .inr (.inr ⟨rfl, illegalWord_of_sys (sys ▸ d)⟩)
  | rejected cpu running d => exact faultRecord_raise (.inr (.inr ⟨rfl, illegalWord_of_rejected d⟩))
  | ticked => exact taken.of_unchanged (State.tickTimers_unchanged _) (by decide)
  | keySet => exact taken.of_unchanged (State.setDown_unchanged _ _ _) (by decide)
  | keyTaken => exact taken.of_unchanged (State.keyTaken_unchanged _ _) (by decide)
  | reset => exact fun faulted => by simp at faulted
  | memCleared => exact taken.of_unchanged (State.memClear_unchanged _) (by decide)
  | loaded => exact taken.of_unchanged (State.loaded_unchanged _ _ _) (by decide)
  | fbCleared => exact taken.of_unchanged (State.fbClear_unchanged _) (by decide)

/-- Settles O11: the machine at power-on has nothing listed in memory, a dark 64 by 32 grid, and no fault. -/
theorem resetMeetsTheInvariants : Obligations.ResetMeetsTheInvariants :=
  ⟨⟨Memory.wf_cleared, by decide, by decide, by decide, Grid.shaped_dark 64 32, by decide, by decide, by decide⟩,
    fun faulted => by simp [State.reset] at faulted⟩

/-! ### Illegal words -/

/-- An illegal word's step takes UnknownOpcode with that word, whether the decoder rejects it or reads it as SYS. -/
theorem step_of_illegal {s : State} (cpu : s.nextAction = .step) (running : s.runState = .running)
    (illegal : IllegalWord s.fetchWord) : step s = .next (s.fetched.raise .unknownOpcode s.fetchWord) := by
  rcases (illegalWord_iff_noHandler _).1 illegal with ⟨r, d⟩ | ⟨a, d⟩
  · exact step_of_rejected cpu running d
  · obtain ⟨-, word⟩ := standsFor_of_decodeWord d
    rw [step_of_executes ⟨cpu, running, d⟩, exec_sys, word]

/-- Settles O17: among the instructions only SYS takes UnknownOpcode, and the words read as SYS are illegal. -/
theorem illegalWordsRaiseUnknownOpcode : Obligations.IllegalWordsRaiseUnknownOpcode := by
  intro s cpu hf hw noKind
  have running : s.runState = .running := State.runState_eq_running.2 ⟨hf, hw⟩
  refine ⟨fun illegal => ⟨_, step_of_illegal cpu running illegal, tookFault_raise _ _ _⟩, fun t h => ⟨?only, ?raises⟩⟩
  case raises =>
    intro illegal
    cases (step_of_illegal cpu running illegal).symm.trans h
    rfl
  case only =>
    intro unknown
    rcases step_running_cases cpu running h with ⟨i, d, run⟩ | ⟨r, d, -⟩
    · rcases exec_faults run with ⟨-, kind, -⟩ | ⟨kind, cond, rfl⟩
      · cases (kind.trans noKind).symm.trans unknown
      · cases (show kind = .unknownOpcode from unknown)
        obtain ⟨a, rfl⟩ := cond
        exact illegalWord_of_sys d
    · exact illegalWord_of_rejected d

end Sys2Proof.Machine
end

section
/-! SUPPORT. What instructions do not read (spec/00_scope.md R9; spec/10_state.md sections 6, 10, 11): an instruction's
effect commutes with any change of the random source's position, and of ST, the history and the previous keys. -/

namespace Sys2Proof.Machine

/-! ### Block transfers commute with a change of what they neither read nor write -/

theorem State.storeBlock_comm {f : State → State} (write : ∀ s a b, (f s).writeByte a b = f (s.writeByte a b))
    (reg : ∀ s r, (f s).getV r = s.getV r) (s : State) (base n : Nat) :
    (f s).storeBlock base n = f (s.storeBlock base n) := by
  induction n with
  | zero => rfl
  | succ k ih => simp only [State.storeBlock, ih, write, reg]

theorem State.loadBlock_comm {f : State → State} (write : ∀ s x b, (f s).setV x b = f (s.setV x b))
    (read : ∀ s a, (f s).readByte a = s.readByte a) (s : State) (base n : Nat) :
    (f s).loadBlock base n = f (s.loadBlock base n) := by
  induction n with
  | zero => rfl
  | succ k ih => simp only [State.loadBlock, ih, write, read]

theorem State.blockIndex_comm {f : State → State} (write : ∀ s n, (f s).setI n = f (s.setI n))
    (cfg : ∀ s, (f s).cfg = s.cfg) (s : State) (base : Nat) (x : Nib) :
    (f s).blockIndex base x = f (s.blockIndex base x) := by
  simp only [State.blockIndex, cfg, write]
  split <;> rfl

/-! ### An instruction over other values of what it does not read -/

/-- The state with another ST, history, previous keys and position of the random source. -/
def State.withUnread (b : Byte) (h : Vector Word 10) (c : Fin 11) (p : Vector Bool 16) (d : Nat) (s : State) : State :=
  { s with st := b, hist := h, histCount := c, prev := p, draws := d }

/-- ST after an instruction that ran in s, with ST = b before it: only LD ST, Vx writes it (R198). -/
def stAfter (b : Byte) (s : State) : Instr → Byte
  | .ldStVx x => s.getV x
  | _ => b

/-- The source's position after an instruction: only RND draws (R172). -/
def drawsAfter (d : Nat) : Instr → Nat
  | .rnd _ _ => d + 1
  | _ => d

theorem exec_storeRegs (x : Nib) (s : State) :
    exec (.storeRegs x) s = .next ((s.storeBlock s.base (x.toNat + 1)).blockIndex s.base x).advance := rfl

theorem exec_loadRegs (x : Nib) (s : State) :
    exec (.loadRegs x) s = .next ((s.loadBlock s.base (x.toNat + 1)).blockIndex s.base x).advance := rfl

theorem exec_rnd (x : Nib) (kk : Byte) (s : State) :
    exec (.rnd x kk) s = .next (s.drawn.setV x (Config.rand8 s.draws &&& kk)).advance := rfl

/-- Replacing those parts before an instruction is replacing them after it; RND needs the byte it draws to be the same. -/
theorem exec_withUnread {i : Instr} {s t : State} (b : Byte) (h : Vector Word 10) (c : Fin 11) (p : Vector Bool 16)
    {d : Nat} (drawn : ∀ x kk, i = .rnd x kk → Config.rand8 d = Config.rand8 s.draws) (run : exec i s = .next t) :
    exec i (s.withUnread b h c p d) = .next (t.withUnread (stAfter b s i) h c p (drawsAfter d i)) := by
  cases i
  case rnd x kk =>
    cases (exec_rnd x kk s).symm.trans run
    rw [← drawn x kk rfl]
    rfl
  case ret =>
    by_cases empty : s.sp = -1
    · cases (exec_ret_of_empty empty).symm.trans run
      exact exec_ret_of_empty (s := s.withUnread b h c p d) empty
    · cases (exec_ret_of_frame empty).symm.trans run
      exact exec_ret_of_frame (s := s.withUnread b h c p d) empty
  case call a =>
    by_cases room : s.depth.val < 16
    · cases (exec_call_of_room room a).symm.trans run
      exact exec_call_of_room (s := s.withUnread b h c p d) room a
    · have full := State.sp_of_no_room room
      cases (exec_call_of_full full a).symm.trans run
      exact exec_call_of_full (s := s.withUnread b h c p d) full a
  case storeRegs x =>
    cases run
    rw [exec_storeRegs, State.storeBlock_comm (f := State.withUnread b h c p d) (fun _ _ _ => rfl) (fun _ _ => rfl),
      State.blockIndex_comm (f := State.withUnread b h c p d) (fun _ _ => rfl) (fun _ => rfl)]
    rfl
  case loadRegs x =>
    cases run
    rw [exec_loadRegs, State.loadBlock_comm (f := State.withUnread b h c p d) (fun _ _ _ => rfl) (fun _ _ => rfl),
      State.blockIndex_comm (f := State.withUnread b h c p d) (fun _ _ => rfl) (fun _ => rfl)]
    rfl
  all_goals cases run; rfl

/-- Replacing the parts by their own values shows what they are after the instruction. -/
theorem exec_unread_after {i : Instr} {s t : State} (run : exec i s = .next t) :
    t.withUnread (stAfter s.st s i) s.hist s.histCount s.prev (drawsAfter s.draws i) = t :=
  Host.Outcome.next.inj ((exec_withUnread s.st s.hist s.histCount s.prev (fun _ _ _ => rfl) run).symm.trans run)

theorem exec_draws {i : Instr} {s t : State} (run : exec i s = .next t) : t.draws = drawsAfter s.draws i :=
  (congrArg State.draws (exec_unread_after run)).symm

theorem exec_withDraws {i : Instr} {s t : State} {d : Nat}
    (drawn : ∀ x kk, i = .rnd x kk → Config.rand8 d = Config.rand8 s.draws) (run : exec i s = .next t) :
    exec i { s with draws := d } = .next { t with draws := drawsAfter d i } := by
  have other := exec_withUnread s.st s.hist s.histCount s.prev drawn run
  have parts := exec_unread_after run
  exact other.trans (congrArg (fun u : State => Host.Outcome.next { u with draws := drawsAfter d i }) parts)

theorem drawsAfter_of_not_rnd {i : Instr} (notRnd : ∀ x kk, i ≠ .rnd x kk) (d : Nat) : drawsAfter d i = d := by
  cases i
  case rnd x kk => exact absurd rfl (notRnd x kk)
  all_goals rfl

theorem exec_withDraws_of_not_rnd {i : Instr} {s t : State} (d : Nat) (notRnd : ∀ x kk, i ≠ .rnd x kk)
    (run : exec i s = .next t) : t.draws = s.draws ∧ exec i { s with draws := d } = .next { t with draws := d } := by
  have after := drawsAfter_of_not_rnd notRnd
  have run' := exec_withDraws (d := d) (fun x kk e => absurd e (notRnd x kk)) run
  rw [after] at run'
  exact ⟨(exec_draws run).trans (after s.draws), run'⟩

/-- Settles O42: every case of a step is the same case from the state with another position of the source, but for a
step that executes RND. -/
theorem onlyRndConsultsTheGenerator : Obligations.OnlyRndConsultsTheGenerator := by
  refine ⟨fun i s t d run => ⟨fun notRnd => exec_withDraws_of_not_rnd d notRnd run, ?rnd⟩, fun s t d h => ?step⟩
  case rnd =>
    rintro ⟨x, kk, rfl⟩ same
    exact exec_withDraws (fun _ _ _ => same) run
  case step =>
    have elsewhere : ∀ {u : State}, StepTo { s with draws := d } u → step { s with draws := d } = .next u :=
      step_of_stepTo
    cases stepTo_of_step h with
    | @executed i _ runs run =>
      by_cases rnd : ∃ x kk, i = .rnd x kk
      · obtain ⟨x, kk, rfl⟩ := rnd
        exact .inr ⟨x, kk, runs⟩
      · obtain ⟨draws, run'⟩ := exec_withDraws_of_not_rnd d (fun x kk e => rnd ⟨x, kk, e⟩) run
        exact .inl ⟨draws, elsewhere (.executed runs run')⟩
    | gated cpu gate => exact .inl ⟨rfl, elsewhere (.gated cpu gate)⟩
    | rejected cpu running r => exact .inl ⟨rfl, elsewhere (.rejected cpu running r)⟩
    | ticked host => exact .inl ⟨rfl, elsewhere (.ticked host)⟩
    | keySet host => exact .inl ⟨rfl, elsewhere (.keySet host)⟩
    | noKey host waiting none => exact .inl ⟨rfl, elsewhere (.noKey host waiting none)⟩
    | keyTaken host waiting key => exact .inl ⟨rfl, elsewhere (.keyTaken host waiting key)⟩
    | reset host => exact .inl ⟨rfl, elsewhere (.reset host)⟩
    | memCleared host => exact .inl ⟨rfl, elsewhere (.memCleared host)⟩
    | loaded host fits => exact .inl ⟨rfl, elsewhere (.loaded host fits)⟩
    | fbCleared host => exact .inl ⟨rfl, elsewhere (.fbCleared host)⟩

/-- Settles O59: the replacement commutes with the instruction; the source's position is not replaced. -/
theorem soundTimerHistoryAndPreviousKeysAreNotRead : Obligations.SoundTimerHistoryAndPreviousKeysAreNotRead := by
  intro i s t b h c p run
  have replaced := exec_withUnread b h c p (d := s.draws) (fun _ _ _ => rfl) run
  rw [← exec_draws run] at replaced
  exact replaced.trans (by cases i <;> rfl)

end Sys2Proof.Machine
end

section
/-! SUPPORT. Rules about the whole machine (spec/10_state.md section 7; spec/60_exceptions.md R224 to R226, R245): the frame
of each operation, who writes each part, how the run state changes, and the ended run. -/

namespace Sys2Proof.Machine

open Sys2Proof.Laws

/-! ### The frame of an operation -/

/-- The parts that an operation of the host may write; a gated `step()` writes none (R238). -/
def Action.writes : Action → List Component
  | .step => []
  | .tickTimers => [.dt, .st]
  | .setDown _ _ => [.keypad]
  | .resolveKey _ => [.regs, .pc, .waiting]
  | .reset => [.regs, .index, .pc, .depth, .stack, .dt, .st, .waiting, .faulting, .history]
  | .memClear | .memLoad _ _ => [.mem]
  | .fbClear => [.fb]

/-- A step executes an instruction, or takes UnknownOpcode for a rejected word, or stays within its operation's frame. -/
theorem step_frame {s t : State} (h : step s = .next t) :
    (∃ i, s.Executes i ∧ exec i s.fetched = .next t) ∨
    (s.nextAction = .step ∧ s.runState = .running ∧ IllegalWord s.fetchWord ∧
      Unchanged [.schedule, .history, .faulting] s t) ∨
    Unchanged (.schedule :: s.nextAction.writes) s t := by
  cases stepTo_of_step h with
  | executed runs run => exact .inl ⟨_, runs, run⟩
  | rejected cpu running d =>
    exact .inr (.inl ⟨cpu, running, illegalWord_of_rejected d, s.fetched_unchanged.comp (State.raise_unchanged _ _ _)⟩)
  | gated cpu | noKey cpu => exact .inr (.inr (s.turnTaken_unchanged.mono (by simp)))
  | ticked host => rw [host]; exact .inr (.inr (s.turnTaken_unchanged.comp (State.tickTimers_unchanged _)))
  | keySet host => rw [host]; exact .inr (.inr (s.turnTaken_unchanged.comp (State.setDown_unchanged _ _ _)))
  | keyTaken host => rw [host]; exact .inr (.inr (s.turnTaken_unchanged.comp (State.keyTaken_unchanged _ _)))
  | reset host => rw [host]; exact .inr (.inr (s.turnTaken_unchanged.comp (State.cpuReset_unchanged _)))
  | memCleared host => rw [host]; exact .inr (.inr (s.turnTaken_unchanged.comp (State.memClear_unchanged _)))
  | loaded host => rw [host]; exact .inr (.inr (s.turnTaken_unchanged.comp (State.loaded_unchanged _ _ _)))
  | fbCleared host => rw [host]; exact .inr (.inr (s.turnTaken_unchanged.comp (State.fbClear_unchanged _)))

/-- Settles O57: with FAULT = 1 nothing executes, and with WAIT = 0 no key is resolved, so only the frames of the tick,
set_down, the clears and the load are left. -/
theorem faultedUntilReset : Obligations.FaultedUntilReset := by
  intro s t hf hw notReset h
  have notRunning : s.runState ≠ .running := by simp [State.runState_of_fault hf]
  rcases step_frame h with ⟨i, ⟨-, running, -⟩, -⟩ | ⟨-, running, -⟩ | frame
  · exact absurd running notRunning
  · exact absurd running notRunning
  · cases a : s.nextAction with
    | reset => exact absurd a notReset
    | resolveKey ready =>
      rw [step_eq, a] at h
      cases (State.resolveKey_refused (s := s.turnTaken) ready hw).symm.trans h
    | _ => rw [a] at frame; exact frame.mono (by simp [Action.writes])

/-! ### The run state -/

/-- Settles O56: of the writers of FAULT, WAIT and KEY_TARGET, the faults and Fx0A run in the Running state only, and the
resolution changes the run state only when FAULT = 0. -/
theorem runStateTransitions : Obligations.RunStateTransitions := by
  intro s t h changed
  cases stepTo_of_step h with
  | gated | ticked | keySet | noKey | memCleared | loaded | fbCleared => exact absurd rfl changed
  | reset host => exact .inl ⟨host, rfl⟩
  | rejected cpu running => exact .inr (.inr (.inr ⟨running, cpu, rfl⟩))
  | @keyTaken ready k host waiting key =>
    cases hf : s.fault with
    | true =>
      have faulted : (s.turnTaken.keyTaken k).runState = .faulted := State.runState_of_fault hf
      exact absurd (faulted.trans (State.runState_of_fault hf).symm) changed
    | false =>
      have isReady : ready = true := by cases ready with
        | true => rfl
        | false => cases key
      have resolved : (s.turnTaken.keyTaken k).runState = .running := State.runState_eq_running.2 ⟨hf, rfl⟩
      exact .inr (.inr (.inl ⟨s.keyTarget, State.runState_of_wait hf waiting, isReady ▸ host, resolved⟩))
  | executed runs run =>
    obtain ⟨cpu, running, d⟩ := runs
    rcases exec_faults run with ⟨fault, -⟩ | ⟨kind, -, rfl⟩
    · obtain ⟨-, -, -, -, -, -, -, -, ⟨wait, target⟩ | ⟨x, rfl⟩, -⟩ := exec_writes run
      · exact absurd (State.runState_congr (s := s) fault wait target) changed
      · cases run
        obtain ⟨hf, -⟩ := State.runState_eq_running.1 running
        exact .inr (.inl ⟨x, running, cpu, d, State.runState_of_wait (s := s.fetched.awaitKey x) hf rfl⟩)
    · exact .inr (.inr (.inr ⟨running, cpu, rfl⟩))

/-! ### Who writes each part -/

/-- A step writes a register only by an instruction that may write it, by the resolution into KEY_TARGET, or by reset. -/
theorem step_register_writers {s t : State} (h : step s = .next t) (r : Nib) :
    t.getV r = s.getV r ∨ s.nextAction = .reset ∨
      ((∃ ready, s.nextAction = .resolveKey ready) ∧ r = s.keyTarget) ∨ ∃ i, s.Executes i ∧ mayWrite i r = true := by
  cases stepTo_of_step h with
  | gated | rejected | ticked | keySet | noKey | memCleared | loaded | fbCleared => exact .inl rfl
  | reset host => exact .inr (.inl host)
  | @keyTaken ready k host =>
    by_cases target : r = s.keyTarget
    · exact .inr (.inr (.inl ⟨⟨ready, host⟩, target⟩))
    · have other : (s.turnTaken.keyTaken k).getV r = s.getV r :=
        (State.getV_setV s.turnTaken s.keyTarget r (k.setWidth 8)).trans (if_neg target)
      exact .inl other
  | executed runs run =>
    obtain ⟨-, -, -, -, -, -, regs, -⟩ := exec_writes run
    exact (regs r).imp_right fun may => .inr (.inr ⟨_, runs, may⟩)

/-- A step takes the operation it performs off the schedule and leaves the rest. -/
theorem step_schedule {s t : State} (h : step s = .next t) : t.schedule = s.schedule.tail :=
  (perform_schedule [] h).2

/-- An instruction that leaves memory's cells leaves every byte. -/
theorem same_mem {s t : State} (cfg : t.cfg = s.cfg) (mem : t.mem = s.mem) : Same .mem s t := fun a => by
  rw [State.readByte, State.readByte, cfg, mem]

theorem same_keypad {s t : State} (down : t.down = s.down) (prev : t.prev = s.prev) : Same .keypad s t := fun k => by
  simp [State.isDown, State.wasDown, down, prev]

theorem same_stack {s t : State} (stack : t.stack = s.stack) : Same .stack s t := fun k => by
  simp [State.stackAt, stack]

theorem same_depth {s t : State} (depth : t.depth = s.depth) : Same .depth s t := by
  simp [Same, State.sp, depth]

theorem State.Executes.illegalWord {s : State} {a : Addr} (h : s.Executes (.sys a)) : IllegalWord s.fetchWord := by
  obtain ⟨-, -, d⟩ := h
  exact illegalWord_of_sys d

/-! Which operation of the host has a part in its frame. -/

theorem mem_mem_writes {a : Action} (h : .mem ∈ a.writes) : a = .memClear ∨ ∃ bytes base, a = .memLoad bytes base := by
  cases a <;> simp_all [Action.writes]

theorem fb_mem_writes {a : Action} (h : .fb ∈ a.writes) : a = .fbClear := by
  cases a <;> simp_all [Action.writes]

theorem keypad_mem_writes {a : Action} (h : .keypad ∈ a.writes) : ∃ k b, a = .setDown k b := by
  cases a <;> simp_all [Action.writes]

theorem timer_mem_writes {a : Action} (h : .dt ∈ a.writes ∨ .st ∈ a.writes) : a = .tickTimers ∨ a = .reset := by
  cases a <;> simp_all [Action.writes]

theorem pc_waiting_mem_writes {a : Action} (h : .pc ∈ a.writes ∨ .waiting ∈ a.writes) :
    a = .reset ∨ ∃ ready, a = .resolveKey ready := by
  cases a <;> simp_all [Action.writes]

theorem reset_only_mem_writes {a : Action} {c : Component} (hc : c ∈ [.index, .depth, .stack, .faulting, .history])
    (h : c ∈ a.writes) : a = .reset := by
  cases a <;> cases c <;> simp_all [Action.writes]

theorem not_mem_writes {a : Action} {c : Component} (hc : c ∈ [.cfg, .draws]) : c ∉ a.writes := by
  cases a <;> cases c <;> simp_all [Action.writes]

/-- Settles O58: an executed instruction writes what `exec_writes` lists, a rejected word the fault registers and the
history, and any other operation stays within its frame. -/
theorem writersOfEachPart : Obligations.WritersOfEachPart := by
  intro s t h
  have regs := step_register_writers h
  have schedule := step_schedule h
  rcases step_frame h with ⟨i, runs, run⟩ | ⟨cpu, running, illegal, frame⟩ | frame
  case inl =>
    have executes : ∀ {j}, i = j → s.Executes j := fun e => e ▸ runs
    obtain ⟨cfg, down, prev, -⟩ := exec_keeps run
    obtain ⟨mem, fb, dt, st, stack, index, -, pc, waiting, faulting, draws⟩ := exec_writes run
    refine ⟨?mem, ?fb, .inl (same_keypad down prev), ?dt, ?st, cfg, ?stack, ?index, regs, ?pc, ?waiting, ?faulting,
      .inr (.inr ⟨runs.cpu, runs.running⟩), ?draws, schedule⟩
    case mem => exact mem.imp (same_mem cfg) fun ⟨x, e⟩ => .inr (.inr ⟨x, e.imp executes executes⟩)
    case fb => exact fb.imp_right fun e => .inr (e.imp executes fun ⟨x, y, n, e⟩ => ⟨x, y, n, executes e⟩)
    case dt => exact dt.imp_right fun ⟨x, e⟩ => .inr (.inr ⟨x, executes e⟩)
    case st => exact st.imp_right fun ⟨x, e⟩ => .inr (.inr ⟨x, executes e⟩)
    case stack =>
      exact stack.imp (fun ⟨cells, depth⟩ => ⟨same_stack cells, same_depth depth⟩)
        fun e => .inr (e.imp executes fun ⟨a, e⟩ => ⟨a, executes e⟩)
    case index =>
      exact index.imp_right fun e => .inr (e.imp (fun ⟨a, e⟩ => ⟨a, executes e⟩)
        fun ⟨x, e⟩ => ⟨x, e.imp executes (Or.imp executes (Or.imp executes executes))⟩)
    case pc => exact pc.imp_right fun e => .inr (.inr ⟨i, runs, e⟩)
    case waiting => exact waiting.imp_right fun ⟨x, e⟩ => .inr (.inr ⟨x, executes e⟩)
    case faulting =>
      exact faulting.imp_right fun e => .inr (e.imp executes (Or.imp (fun ⟨a, e⟩ => ⟨a, executes e⟩)
        fun ⟨a, e⟩ => ⟨runs.cpu, runs.running, (executes e).illegalWord⟩))
    case draws => exact draws.imp_right fun ⟨x, kk, e⟩ => ⟨x, kk, executes e⟩
  case inr.inl =>
    have same : ∀ c, c ∉ [.schedule, .history, .faulting] → Same c s t := frame
    exact ⟨.inl (same .mem (by decide)), .inl (same .fb (by decide)), .inl (same .keypad (by decide)),
      .inl (same .dt (by decide)), .inl (same .st (by decide)), same .cfg (by decide),
      .inl ⟨same .stack (by decide), same .depth (by decide)⟩, .inl (same .index (by decide)), regs,
      .inl (same .pc (by decide)), .inl (same .waiting (by decide)), .inr (.inr (.inr (.inr ⟨cpu, running, illegal⟩))),
      .inr (.inr ⟨cpu, running⟩), .inl (same .draws (by decide)), schedule⟩
  case inr.inr =>
    have part : ∀ c, c ≠ .schedule → Same c s t ∨ c ∈ s.nextAction.writes := fun c hc =>
      (Classical.em (c ∈ s.nextAction.writes)).symm.imp_left fun out => frame c (by simp [hc, out])
    have resetOnly : ∀ c ∈ [.index, .depth, .stack, .faulting, .history], Same c s t ∨ s.nextAction = .reset :=
      fun c hc => (part c (by rintro rfl; simp at hc)).imp_right (reset_only_mem_writes hc)
    refine ⟨?mem, ?fb, ?keypad, ?dt, ?st, ?cfg, ?stack, ?index, regs, ?pc, ?waiting, ?faulting, ?history, ?draws,
      schedule⟩
    case mem => exact (part .mem (by decide)).imp_right fun m => (mem_mem_writes m).imp_right .inl
    case fb => exact (part .fb (by decide)).imp_right fun m => .inl (fb_mem_writes m)
    case keypad => exact (part .keypad (by decide)).imp_right keypad_mem_writes
    case dt => exact (part .dt (by decide)).imp_right fun m => (timer_mem_writes (.inl m)).imp_right .inl
    case st => exact (part .st (by decide)).imp_right fun m => (timer_mem_writes (.inr m)).imp_right .inl
    case cfg => exact (part .cfg (by decide)).resolve_right (not_mem_writes (by simp))
    case stack =>
      rcases resetOnly .stack (by simp) with cells | reset
      · exact (resetOnly .depth (by simp)).imp (⟨cells, ·⟩) .inl
      · exact .inr (.inl reset)
    case index => exact (resetOnly .index (by simp)).imp_right .inl
    case pc => exact (part .pc (by decide)).imp_right fun m => (pc_waiting_mem_writes (.inl m)).imp_right .inl
    case waiting => exact (part .waiting (by decide)).imp_right fun m => (pc_waiting_mem_writes (.inr m)).imp_right .inl
    case faulting => exact (resetOnly .faulting (by simp)).imp_right .inl
    case history => exact (resetOnly .history (by simp)).imp_right .inl
    case draws => exact .inl ((part .draws (by decide)).resolve_right (not_mem_writes (by simp)))

/-! ### The ended run -/

/-- Settles O60: the jump writes PC with the value it has, so the step's whole effect is the record of its word. -/
theorem endedRunStaysEnded : Obligations.EndedRunStaysEnded := by
  intro s ended cpu
  obtain ⟨running, below, d⟩ := ended
  have target : addrOperand (s.pc.setWidth 12) = s.pc := by
    apply BitVec.eq_of_toNat_eq
    rw [addrOperand_toNat, BitVec.toNat_setWidth]
    omega
  have jump : step s = .next s.fetched := by
    rw [step_of_executes ⟨cpu, running, d⟩, exec_jp, target]
    rfl
  exact ⟨s.fetched, jump, ⟨running, below, d⟩, s.fetched_unchanged.mono (by simp)⟩

end Sys2Proof.Machine
end

section
/-! SUPPORT. One byte of memory and the fetch (spec/20_memory.md sections 2, 3). -/

namespace Sys2Proof.Machine

/-- Settles O6: the read-after-write law at every pair of addresses, and the frame of a byte write. -/
theorem byteReadsBackAfterWrite : Obligations.ByteReadsBackAfterWrite :=
  fun s a k b => ⟨s.readByte_writeByte a k b, s.writeByte_unchanged a b⟩

/-- Settles O7: the word is the two bytes, high byte first, and a read reduces its address. -/
theorem fetchIsBigEndian : Obligations.FetchIsBigEndian := by
  intro s
  rw [State.fetchWord, wordOfBytes_toNat, State.readByte_mod, State.readByte_mod]

theorem State.readByte_congr (s : State) {a b : Nat} (h : a % 4096 = b % 4096) : s.readByte a = s.readByte b := by
  rw [← s.readByte_mod a, h, s.readByte_mod]

end Sys2Proof.Machine
end

section
/-! SUPPORT. RET, SYS, CALL and JP V0 (spec/41_flow.md R131, R132, R134; spec/45_index_jump_random.md R171). -/

namespace Sys2Proof.Machine

theorem State.topFrame_eq_stackAt {s : State} {k : Fin 16} (h : s.sp = k.val) : s.topFrame = s.stackAt k := by
  have top : s.depth.val - 1 = k.val := by
    rw [State.sp] at h
    omega
  simp only [State.topFrame, State.stackAt, top]

/-- Settles O22: with a frame active RET is a write of PC and a pop, without one it takes StackUnderflow. -/
theorem retPopsOrUnderflows : Obligations.RetPopsOrUnderflows := by
  intro s
  constructor
  · intro k top
    have frame : s.sp ≠ -1 := by omega
    have sp : (s.setPc s.topFrame).pop.sp = s.sp - 1 := State.sp_pop _ (mt s.depth_eq_zero_iff_sp.1 frame)
    exact ⟨_, exec_ret_of_frame frame, State.topFrame_eq_stackAt top, sp,
      (s.setPc_unchanged _).comp (State.pop_unchanged _)⟩
  · intro empty
    exact ⟨_, exec_ret_of_empty empty, tookFault_raise s .stackUnderflow 0x00EE⟩

/-- Settles O23: SYS is a fault entry with its own word, whose family nibble is 0. -/
theorem sysRaisesUnknownOpcode : Obligations.SysRaisesUnknownOpcode := by
  intro s addr
  have word : (encode (.sys addr)).toNat = addr.toNat := (encA_toNat 0x0 addr).trans (Nat.zero_add _)
  exact ⟨_, exec_sys addr s, word, tookFault_raise s .unknownOpcode _⟩

/-- Settles O25: below sixteen frames CALL is a push of PC + 2 and a write of PC, at sixteen it takes StackOverflow. -/
theorem callPushesOrOverflows : Obligations.CallPushesOrOverflows := by
  intro s addr
  constructor
  · intro notFull
    have room : s.depth.val < 16 := by
      rw [State.sp] at notFull
      omega
    refine ⟨_, ⟨s.depth.val, room⟩, exec_call_of_room room addr, ?cell, s.sp_push (s.pc + 2) room, ?pushed, ?others, ?pc,
      ((s.push_unchanged (s.pc + 2) room).comp (State.setPc_unchanged _ _)).mono (by simp)⟩
    case cell => exact (Int.sub_add_cancel _ _).symm
    case pushed => rw [State.setPc_stackAt, State.stackAt_push, if_pos rfl]
    case others =>
      intro j other
      rw [State.setPc_stackAt, State.stackAt_push, if_neg fun e => other (Fin.ext e)]
    case pc => rw [State.setPc_pc, addrOperand_toNat]
  · intro full
    have word : (encode (.call addr)).toNat = 0x2000 + addr.toNat := encA_toNat 0x2 addr
    exact ⟨_, exec_call_of_full full addr, word, tookFault_raise s .stackOverflow _⟩

/-- Settles O28: RET pops the cell that CALL pushed. -/
theorem retComesBackAfterCall : Obligations.RetComesBackAfterCall := by
  intro s t u addr notFull call sp cells
  obtain ⟨_, k, call', cell, top, pushed, -⟩ := (callPushesOrOverflows s addr).1 notFull
  cases call.symm.trans call'
  obtain ⟨w, ret, pc, below, -⟩ := (retPopsOrUnderflows u).1 k (by omega)
  exact ⟨w, ret, by rw [pc, cells, pushed], by omega⟩

theorem exec_jpV0 (addr : Addr) (s : State) :
    exec (.jpV0 addr) s = .next (s.setPc (addrOperand addr + byteOperand (s.getV 0))) := rfl

/-- Settles O26: the sum of a 12-bit and an 8-bit number does not reach 16 bits. -/
theorem jpV0AddsTheOffset : Obligations.JpV0AddsTheOffset := by
  intro s addr
  have fits : addr.toNat + (s.getV 0).toNat < 65536 := by have := addr.isLt; have := (s.getV 0).isLt; omega
  have sum : (addrOperand addr + byteOperand (s.getV 0)).toNat = addr.toNat + (s.getV 0).toNat := by
    rw [BitVec.toNat_add, addrOperand_toNat, byteOperand_toNat, Nat.mod_eq_of_lt fits]
  exact ⟨_, exec_jpV0 addr s, sum, s.setPc_unchanged _⟩

end Sys2Proof.Machine
end

section
/-! SUPPORT. The conditional skips (spec/42_skip.md R140 to R144; spec/47_keyskip.md R190 to R192): all six are `skipIf` of
their condition. -/

namespace Sys2Proof.Machine

theorem State.skipIf_toNat (s : State) (b : Bool) :
    (s.skipIf b).pc.toNat = (s.pc.toNat + if b = true then 4 else 2) % 65536 := by
  cases b <;> exact BitVec.toNat_add _ _

/-- A skip on p moves PC on by 4 when p holds and by 2 when it does not. -/
theorem State.skipIf_spec (s : State) (p : Prop) [Decidable p] :
    (s.skipIf (decide p)).pc.toNat = (s.pc.toNat + if p then 4 else 2) % 65536 ∧
      Unchanged [.pc] s (s.skipIf (decide p)) := by
  refine ⟨?_, s.skipIf_unchanged _⟩
  simp only [State.skipIf_toNat, decide_eq_true_eq]

/-- A skip on not p moves PC on by 2 when p holds and by 4 when it does not. -/
theorem State.skipIf_not_spec (s : State) (p : Prop) [Decidable p] :
    (s.skipIf (decide (¬p))).pc.toNat = (s.pc.toNat + if p then 2 else 4) % 65536 ∧
      Unchanged [.pc] s (s.skipIf (decide (¬p))) := by
  simpa only [ite_not] using s.skipIf_spec (¬p)

/-- Settles O29: SE skips on equality with kk, SNE on its negation. -/
theorem immediateSkips : Obligations.ImmediateSkips := by
  intro s x kk
  exact ⟨⟨_, rfl, s.skipIf_spec (s.getV x = kk)⟩, ⟨_, rfl, s.skipIf_not_spec (s.getV x = kk)⟩⟩

/-- Settles O30: the same between two registers, n in no condition. -/
theorem registerSkips : Obligations.RegisterSkips := by
  intro s x y n
  exact ⟨⟨_, rfl, s.skipIf_spec (s.getV x = s.getV y)⟩, ⟨_, rfl, s.skipIf_not_spec (s.getV x = s.getV y)⟩⟩

theorem exec_skp (x : Nib) (s : State) : exec (.skp x) s = .next (s.skipIf (s.isDown (lowNibble (s.getV x)))) := rfl

theorem exec_sknp (x : Nib) (s : State) : exec (.sknp x) s = .next (s.skipIf (!s.isDown (lowNibble (s.getV x)))) := rfl

/-- Settles O31: the key is the low nibble, SKP skips when it is down and SKNP when it is not. -/
theorem keySkips : Obligations.KeySkips := by
  intro s x k low
  have key : lowNibble (s.getV x) = k := BitVec.eq_of_toNat_eq ((lowNibble_toNat _).trans low.symm)
  have down : decide (s.isDown k = true) = s.isDown k := Bool.decide_eq_true
  have up : decide (¬s.isDown k = true) = !s.isDown k := by cases s.isDown k <;> rfl
  exact ⟨⟨_, by rw [exec_skp, key, down], s.skipIf_spec (s.isDown k = true)⟩,
    ⟨_, by rw [exec_sknp, key, up], s.skipIf_not_spec (s.isDown k = true)⟩⟩

end Sys2Proof.Machine
end

section
/-! SUPPORT. Family 8 (spec/44_alu.md R156 to R163; spec/10_state.md R23): the logic operations write one register, the
others a result and then a flag. -/

namespace Sys2Proof.Machine

/-- An operation that writes V[x] alone and moves on: what every register then holds. -/
theorem State.setV_advance_spec (s : State) (x : Nib) (b : Byte) :
    (s.setV x b).advance.getV x = b ∧ (∀ r, r ≠ x → (s.setV x b).advance.getV r = s.getV r) ∧
      (s.setV x b).advance.pc = s.pc + 2 ∧ Unchanged [.regs, .pc] s (s.setV x b).advance :=
  have reg := s.setV_advance_onlyReg x b
  ⟨reg.getV_same, fun _ => reg.getV_other, rfl, s.setV_advance_unchanged x b⟩

/-- Settles O34: each writes V[x] alone, with the bitwise result. -/
theorem logicOperations : Obligations.LogicOperations := by
  intro s x y
  refine ⟨?or, ?and, ?xor⟩
  case or =>
    obtain ⟨result, rest⟩ := s.setV_advance_spec x (s.getV x ||| s.getV y)
    exact ⟨_, rfl, fun j => by rw [result, BitVec.getLsbD_or], rest⟩
  case and =>
    obtain ⟨result, rest⟩ := s.setV_advance_spec x (s.getV x &&& s.getV y)
    exact ⟨_, rfl, fun j => by rw [result, BitVec.getLsbD_and], rest⟩
  case xor =>
    obtain ⟨result, rest⟩ := s.setV_advance_spec x (s.getV x ^^^ s.getV y)
    exact ⟨_, rfl, fun j => by rw [result, BitVec.getLsbD_xor], rest⟩

/-- An operation that writes V[x], then the flag, and moves on, with the result and the flag as numbers (R118). -/
theorem State.setVFlag_advance_spec (s : State) (x : Nib) {b : Byte} {f : Bool} {result flag : Nat}
    (hb : b.toNat = result) (hf : f.toNat = flag) :
    ResultThenFlag x result flag s (s.setVFlag x b f).advance ∧ (s.setVFlag x b f).advance.pc = s.pc + 2 ∧
      Unchanged [.regs, .pc] s (s.setVFlag x b f).advance := by
  refine ⟨⟨fun notF => ?_, ?_, fun r other notF => ?_⟩, rfl, (s.setVFlag_unchanged x b f).comp (State.advance_unchanged _)⟩
  · rw [State.advance_getV, State.setVFlag, State.getV_setVF, if_neg notF, State.getV_setV, if_pos rfl, hb]
  · rw [State.advance_getV, State.setVFlag, State.getV_setVF, if_pos rfl, flagByte_toNat, hf]
  · rw [State.advance_getV, State.setVFlag, State.getV_setVF, if_neg notF, State.getV_setV, if_neg other]

theorem toNat_decide (p : Prop) [Decidable p] : (decide p).toNat = if p then 1 else 0 := Bool.cond_decide ..

/-- Settles O35: the byte sum is the sum modulo 256, the carry says whether it exceeds 255. -/
theorem addWithCarryOut : Obligations.AddWithCarryOut := by
  intro s x y
  exact ⟨_, rfl, s.setVFlag_advance_spec x (BitVec.toNat_add _ _) (toNat_decide _)⟩

theorem sub_toNat (a b : Byte) : (a - b).toNat = (a.toNat + 256 - b.toNat) % 256 := by
  rw [BitVec.toNat_sub]
  have := b.isLt
  omega

/-- Settles O36: both are byte differences with NOT borrow, the operands exchanged. -/
theorem subtractWithNotBorrow : Obligations.SubtractWithNotBorrow := by
  intro s x y
  exact ⟨⟨_, rfl, s.setVFlag_advance_spec x (sub_toNat _ _) (toNat_decide _)⟩,
    ⟨_, rfl, s.setVFlag_advance_spec x (sub_toNat _ _) (toNat_decide _)⟩⟩

theorem State.shiftSource_toNat (s : State) (x y : Nib) :
    (s.shiftSource x y).toNat = if s.cfg.shiftLegacy = true then (s.getV y).toNat else (s.getV x).toNat := by
  unfold State.shiftSource
  split <;> rfl

theorem shiftedOutRight_toNat (b : Byte) : (shiftedOutRight b).toNat = b.toNat % 2 := by
  rw [shiftedOutRight, BitVec.getLsbD, Nat.toNat_testBit, pow_zero, Nat.div_one]

theorem shiftedOutLeft_toNat (b : Byte) : (shiftedOutLeft b).toNat = b.toNat / 128 := by
  have := b.isLt
  rw [shiftedOutLeft, BitVec.getLsbD, Nat.toNat_testBit]
  omega

theorem shiftRight_one_toNat (b : Byte) : (b >>> 1).toNat = b.toNat / 2 := by
  rw [BitVec.toNat_ushiftRight, Nat.shiftRight_one]

theorem shiftLeft_one_toNat (b : Byte) : (b <<< 1).toNat = b.toNat * 2 % 256 := by
  rw [BitVec.toNat_shiftLeft, Nat.shiftLeft_eq, pow_one]

/-- Settles O37: both read the source that SHIFT_LEGACY names and write its half or double, then the bit that leaves. -/
theorem shiftsFollowTheConfiguration : Obligations.ShiftsFollowTheConfiguration := by
  intro s x y src source
  rw [← State.shiftSource_toNat] at source
  subst source
  exact ⟨⟨_, rfl, s.setVFlag_advance_spec x (shiftRight_one_toNat _) (shiftedOutRight_toNat _)⟩,
    ⟨_, rfl, s.setVFlag_advance_spec x (shiftLeft_one_toNat _) (shiftedOutLeft_toNat _)⟩⟩

end Sys2Proof.Machine
end

section
/-! SUPPORT. The index register, the random byte, the timers and the key wait (spec/45_index_jump_random.md R172;
spec/48_family_f.md R195 to R200). -/

namespace Sys2Proof.Machine

theorem exec_addI (x : Nib) (s : State) :
    exec (.addI x) s = .next ((s.setI (s.base + (s.getV x).toNat)).setVF
      (indexOverflow (s.base + (s.getV x).toNat))).advance := rfl

/-- Settles O39: the write of I reduces the sum, the flag compares it before the reduction. -/
theorem addToIndexWithOverflow : Obligations.AddToIndexWithOverflow := by
  intro s x
  refine ⟨_, exec_addI x s, s.setI_toNat _, ?flag, ?others, rfl, ?frame⟩
  case flag => rw [State.advance_getV, State.getV_setVF, if_pos rfl, flagByte_toNat]; exact toNat_decide _
  case others =>
    intro r notF
    rw [State.advance_getV, State.getV_setVF, if_neg notF, State.setI_getV]
  case frame =>
    exact (((s.setI_unchanged _).comp (State.setVF_unchanged _ _)).comp (State.advance_unchanged _)).mono (by simp)

/-- Settles O40: five times a nibble is below 4096, so the write of I keeps it. -/
theorem glyphAddress : Obligations.GlyphAddress := by
  intro s x
  have index : (s.setI (glyphAddr (lowNibble (s.getV x)))).i.toNat = 5 * ((s.getV x).toNat % 16) := by
    rw [State.setI_toNat, glyphAddr, lowNibble_toNat]
    omega
  exact ⟨_, rfl, index, rfl, s.setI_advance_unchanged _⟩

/-- Settles O41: the byte drawn is masked before it is written. -/
theorem randomByteUnderMask : Obligations.RandomByteUnderMask := by
  intro s x kk
  have reg : OnlyReg x (Config.rand8 s.draws &&& kk) s (s.drawn.setV x (Config.rand8 s.draws &&& kk)).advance :=
    s.drawn.setV_advance_onlyReg x _
  refine ⟨_, exec_rnd x kk s, reg, fun j bit => ?_, rfl, rfl, ?_⟩
  · rw [reg.getV_same, BitVec.getLsbD_and, Bool.and_eq_true] at bit
    exact bit.2
  · exact (s.drawn_unchanged.comp (s.drawn.setV_advance_unchanged x _)).mono (by simp)

/-- Settles O45: each moves one byte and moves on. -/
theorem timerReadAndWrites : Obligations.TimerReadAndWrites := by
  intro s x
  exact ⟨⟨_, rfl, s.setV_advance_onlyReg x s.dt, rfl, s.setV_advance_unchanged x s.dt⟩,
    ⟨_, rfl, rfl, rfl, (s.setDt_unchanged _).comp (State.advance_unchanged _)⟩,
    ⟨_, rfl, rfl, rfl, (s.setSt_unchanged _).comp (State.advance_unchanged _)⟩⟩

/-- Settles O46: LD Vx, K writes WAIT and KEY_TARGET. -/
theorem keyWaitSuspends : Obligations.KeyWaitSuspends :=
  fun s x => ⟨_, rfl, rfl, rfl, s.awaitKey_unchanged x⟩

end Sys2Proof.Machine
end

section
/-! SUPPORT. The memory transfers Fx33, Fx55 and Fx65 (spec/48_family_f.md R201 to R203): what a block store leaves at an
address inside and outside its range. -/

namespace Sys2Proof.Machine

theorem exec_ldB (x : Nib) (s : State) :
    exec (.ldB x) s = .next (((s.writeByte s.base (bcdHundreds (s.getV x))).writeByte (s.base + 1)
      (bcdTens (s.getV x))).writeByte (s.base + 2) (bcdOnes (s.getV x))).advance := rfl

/-- Settles O47: three byte writes at addresses that differ modulo 4096. -/
theorem storeDecimalDigits : Obligations.StoreDecimalDigits := by
  intro s x
  refine ⟨_, exec_ldB x s, ?hundreds, ?tens, ?ones, ?others, rfl, ?frame⟩
  case hundreds =>
    rw [State.advance_readByte, State.readByte_writeByte, if_neg (by omega), State.readByte_writeByte,
      if_neg (by omega), State.readByte_writeByte, if_pos rfl, bcdHundreds_toNat]
  case tens =>
    rw [State.advance_readByte, State.readByte_writeByte, if_neg (by omega), State.readByte_writeByte, if_pos rfl,
      bcdTens_toNat]
  case ones => rw [State.advance_readByte, State.readByte_writeByte, if_pos rfl, bcdOnes_toNat]
  case others =>
    intro a off
    have notFirst : a % 4096 ≠ s.base % 4096 := off 0 (by decide)
    rw [State.advance_readByte, State.readByte_writeByte, if_neg (off 2 (by decide)), State.readByte_writeByte,
      if_neg (off 1 (by decide)), State.readByte_writeByte, if_neg notFirst]
  case frame =>
    exact ((((s.writeByte_unchanged _ _).trans (State.writeByte_unchanged _ _ _)).trans
      (State.writeByte_unchanged _ _ _)).comp (State.advance_unchanged _))

/-- A stored register is read back at its place in the block. -/
theorem State.readByte_storeBlock_inside (s : State) (base : Nat) {n k : Nat} (hn : n ≤ 16) (hk : k < n) :
    (s.storeBlock base n).readByte (base + k) = s.getV (BitVec.ofNat 4 k) := by
  rw [State.readByte_storeBlock s base n hn]
  cases found : (List.range n).find? fun j => decide ((base + k) % 4096 = (base + j) % 4096) with
  | none => exact absurd (decide_eq_true rfl) (List.find?_eq_none.1 found k (List.mem_range.2 hk))
  | some j =>
    have inRange := List.mem_range.1 (List.mem_of_find?_eq_some found)
    have same : (base + k) % 4096 = (base + j) % 4096 := by simpa using List.find?_some found
    rw [show j = k by omega]

theorem State.readByte_storeBlock_outside (s : State) (base : Nat) {n a : Nat} (hn : n ≤ 16)
    (off : ∀ k, k < n → a % 4096 ≠ (base + k) % 4096) : (s.storeBlock base n).readByte a = s.readByte a := by
  rw [State.readByte_storeBlock s base n hn, List.find?_eq_none.2 fun j hj => by simpa using off j (List.mem_range.1 hj)]

/-- Settles O48: the block store, the index after it, and PC + 2. -/
theorem storeRegisterBlock : Obligations.StoreRegisterBlock := by
  intro s x
  have hx : x.toNat + 1 ≤ 16 := x.isLt
  refine ⟨_, exec_storeRegs x s, ?inside, ?outside, ?index, ?pc, ?frame⟩
  case inside =>
    intro k hk
    rw [State.advance_readByte, State.blockIndex_readByte, s.readByte_storeBlock_inside s.base hx (by omega),
      BitVec.ofNat_toNat, BitVec.setWidth_eq]
  case outside =>
    intro a off
    rw [State.advance_readByte, State.blockIndex_readByte,
      s.readByte_storeBlock_outside s.base hx fun k hk => off k (by omega)]
  case index => rw [State.advance_i, State.blockIndex_toNat, State.storeBlock_cfg, State.storeBlock_i]
  case pc => rw [State.advance_pc, State.blockIndex_pc, State.storeBlock_pc]
  case frame =>
    exact ((s.storeBlock_unchanged _ _).comp (State.blockIndex_unchanged _ _ _)).comp (State.advance_unchanged _)

/-- Settles O49: the block load, the index after it, and PC + 2. -/
theorem loadRegisterBlock : Obligations.LoadRegisterBlock := by
  intro s x
  have hx : x.toNat + 1 ≤ 16 := x.isLt
  refine ⟨_, exec_loadRegs x s, ?regs, ?index, ?pc, ?frame⟩
  case regs =>
    intro k
    rw [State.advance_getV, State.blockIndex_getV, s.getV_loadBlock s.base _ hx]
    simp only [Nat.lt_succ_iff]
  case index => rw [State.advance_i, State.blockIndex_toNat, State.loadBlock_cfg, State.loadBlock_i]
  case pc => rw [State.advance_pc, State.blockIndex_pc, State.loadBlock_pc]
  case frame =>
    exact ((s.loadBlock_unchanged _ _).comp (State.blockIndex_unchanged _ _ _)).comp (State.advance_unchanged _)

/-- Settles O50: the two bytes fetched at the next PC are the first two stored, PC being reduced as I is. -/
theorem storeIsSeenByTheNextFetch : Obligations.StoreIsSeenByTheNextFetch := by
  intro s t x hx next run
  obtain ⟨_, run', stored, -, -, pc, -⟩ := storeRegisterBlock s x
  cases run.symm.trans run'
  have pcNat : t.pc.toNat = (s.pc.toNat + 2) % 65536 := by rw [pc]; exact BitVec.toNat_add _ _
  have first : t.readByte t.pc.toNat = s.getV 0 :=
    (t.readByte_congr (by rw [show (0 : Nib).toNat = 0 from rfl]; omega)).trans (stored 0 (Nat.zero_le _))
  have second : t.readByte (t.pc.toNat + 1) = s.getV 1 :=
    (t.readByte_congr (by rw [show (1 : Nib).toNat = 1 from rfl]; omega)).trans (stored 1 hx)
  rw [State.fetchWord, first, second]

end Sys2Proof.Machine
end

section
/-! SUPPORT. The sprite draw (spec/46_draw.md R180 to R184): the pixels a sprite toggles, counted, are its hits; so a draw
turns each pixel over once per hit, and drawing again turns it back. -/

namespace Sys2Proof.Machine

/-- How often a sprite row lists a pixel: its 1 bits whose column lands there, when the row does. -/
theorem count_rowPixels (cfg : Config) (b : Byte) (x0 y r c count : Nat) :
    (rowPixels cfg b x0 y count).count (r, c) =
      ((List.range count).filter fun col =>
        b.getLsbD (7 - col) && decide ((x0 + col) % cfg.fbW = c ∧ y % cfg.fbH = r)).length := by
  rw [rowPixels, List.count, List.countP_map, List.countP_filter, List.countP_eq_length_filter]
  congr 2
  funext col
  simp [Bool.and_comm, and_comm, Bool.beq_eq_decide_eq]

/-- How often a sprite lists a pixel: its hits on that pixel. -/
theorem State.count_spritePixels (s : State) (x y n : Nib) (r c : Nat) :
    (spritePixels s.cfg s.mem s.base (s.getV x).toNat (s.getV y).toNat n.toNat).count (r, c) =
      s.spriteHits x y n r c := by
  simp only [spritePixels, List.count_flatMap, Function.comp_def, count_rowPixels]
  rfl

theorem State.drawResult_eq (s : State) (x y n : Nib) :
    s.drawResult x y n = togglePixels
      (spritePixels s.cfg s.mem s.base (s.getV x).toNat (s.getV y).toNat n.toNat) (s.fb, false) := plotRows_eq ..

theorem exec_drw (x y n : Nib) (s : State) :
    exec (.drw x y n) s = .next ((s.setFb (s.drawResult x y n).1).setVF (s.drawResult x y n).2).advance := rfl

section
variable {s : State} (x y n : Nib) (hw : 1 ≤ s.cfg.fbW) (hh : 1 ≤ s.cfg.fbH)
  (shaped : Grid.shaped s.fb s.cfg.fbW s.cfg.fbH = true)
include hw hh shaped

theorem State.drawResult_pixel (r c : Nat) :
    (s.drawResult x y n).1.pixel r c = (s.pixel r c ^^ decide (s.spriteHits x y n r c % 2 = 1)) := by
  rw [State.drawResult_eq, togglePixels_pixel _ (fun _ => spritePixels_inside hw hh) shaped, State.count_spritePixels]
  rfl

theorem State.drawResult_noCollision :
    (s.drawResult x y n).2 = false ↔ ∀ r c, r < s.cfg.fbH → c < s.cfg.fbW →
      s.spriteHits x y n r c + (if s.pixel r c = true then 1 else 0) ≤ 1 := by
  rw [State.drawResult_eq, togglePixels_noHit _ (fun _ => spritePixels_inside hw hh) shaped]
  simp only [State.count_spritePixels, true_and]
  rfl

end

/-- Settles O43: a draw is a list of toggles inside the grid, each pixel listed once per hit; the flag is the collision
of any of them. -/
theorem drawTogglesAndReportsCollision : Obligations.DrawTogglesAndReportsCollision := by
  intro s x y n hw hh shaped
  have clear := State.drawResult_noCollision x y n hw hh shaped
  refine ⟨_, exec_drw x y n s, fun r c _ _ => State.drawResult_pixel x y n hw hh shaped r c, ?shape, ?flag, ?others, rfl,
    ?frame⟩
  case shape =>
    rw [State.advance_fb, State.setVF_fb, State.setFb_fb, State.drawResult_eq]
    exact togglePixels_shaped _ shaped
  case flag =>
    rw [State.advance_getV, State.getV_setVF, if_pos rfl, flagByte_eq_one, flagByte_eq_zero]
    cases collided : (s.drawResult x y n).2 with
    | false => exact .inr ⟨rfl, clear.1 collided⟩
    | true =>
      have hit : ¬∀ r c, r < s.cfg.fbH → c < s.cfg.fbW →
          s.spriteHits x y n r c + (if s.pixel r c = true then 1 else 0) ≤ 1 := by simp [← clear, collided]
      push Not at hit
      obtain ⟨r, c, hr, hc, twice⟩ := hit
      exact .inl ⟨rfl, r, c, hr, hc, twice⟩
  case others =>
    intro r notF
    rw [State.advance_getV, State.getV_setVF, if_neg notF, State.setFb_getV]
  case frame =>
    exact (((s.setFb_unchanged _).comp (State.setVF_unchanged _ _)).comp (State.advance_unchanged _)).mono (by simp)

/-- The hits of a sprite are read from the configuration, I, the two coordinate registers and memory. -/
theorem State.spriteHits_congr {s t : State} {x y n : Nib} (cfg : t.cfg = s.cfg) (index : t.i = s.i)
    (hx : t.getV x = s.getV x) (hy : t.getV y = s.getV y) (bytes : Same .mem s t) (r c : Nat) :
    t.spriteHits x y n r c = s.spriteHits x y n r c := by
  have byte : ∀ a, t.readByte a = s.readByte a := bytes
  simp only [State.spriteHits, State.base, cfg, index, hx, hy, byte]

/-- Settles O44: the second draw has the first one's hits, so it turns every pixel back; with at most one hit on a pixel
it collides exactly where the first draw turned a pixel on. -/
theorem drawTwiceRestores : Obligations.DrawTwiceRestores := by
  intro s t u x y n hw hh shaped hx hy single first second
  obtain ⟨_, first', pixels, shaped', -, regs, -, frame⟩ := drawTogglesAndReportsCollision s x y n hw hh shaped
  cases first.symm.trans first'
  have cfg : t.cfg = s.cfg := frame .cfg (by decide)
  have hits : ∀ r c, t.spriteHits x y n r c = s.spriteHits x y n r c := State.spriteHits_congr cfg
    (frame .index (by decide)) (regs x hx) (regs y hy) (frame .mem (by decide))
  obtain ⟨_, second', pixels', shaped'', flag, -⟩ :=
    drawTogglesAndReportsCollision t x y n (cfg ▸ hw) (cfg ▸ hh) (by rw [cfg]; exact shaped')
  cases second.symm.trans second'
  rw [cfg] at pixels' shaped'' flag
  simp only [hits] at pixels' flag
  constructor
  · refine Grid.ext_of_shaped shaped'' shaped fun r c hr hc => ?_
    show u.pixel r c = s.pixel r c
    rw [pixels' r c hr hc, pixels r c hr hc, Bool.xor_assoc, Bool.xor_self, Bool.xor_false]
  · have turnedOn : ∀ r c, r < s.cfg.fbH → c < s.cfg.fbW →
        (2 ≤ s.spriteHits x y n r c + (if t.pixel r c = true then 1 else 0) ↔
          s.pixel r c = false ∧ t.pixel r c = true) := by
      intro r c hr hc
      have most := single r c hr hc
      rw [pixels r c hr hc]
      obtain none | one : s.spriteHits x y n r c = 0 ∨ s.spriteHits x y n r c = 1 := by omega
      · cases s.pixel r c <;> simp [none]
      · cases s.pixel r c <;> simp [one]
    rcases flag with ⟨on, r, c, hr, hc, twice⟩ | ⟨off, most⟩
    · exact iff_of_true on ⟨r, c, hr, hc, (turnedOn r c hr hc).1 twice⟩
    · refine iff_of_false (by rw [off]; decide) ?_
      rintro ⟨r, c, hr, hc, turned⟩
      have := (turnedOn r c hr hc).2 turned
      have := most r c hr hc
      omega

end Sys2Proof.Machine
end

section
/-! SUPPORT. Reset and power-on (spec/70_reset_and_hazards.md R260 to R262): the CPU's startup values, said once of
`reset()`; the machine at power-on is its own reset over the cleared image, a dark grid and released keys. -/

namespace Sys2Proof.Machine

@[simp] theorem State.cpuReset_getV (s : State) (r : Nib) : s.cpuReset.getV r = 0 :=
  Vector.getElem_replicate r.isLt

@[simp] theorem State.cpuReset_stackAt (s : State) (k : Fin 16) : s.cpuReset.stackAt k = 0 :=
  Vector.getElem_replicate k.isLt

theorem State.cpuReset_histAt (s : State) (k : Fin 10) : s.cpuReset.hist[k] = 0 := Vector.getElem_replicate k.isLt

theorem State.cpuReset_runState (s : State) : s.cpuReset.runState = .running := rfl

theorem State.cpuReset_sp (s : State) : s.cpuReset.sp = -1 := rfl

theorem step_of_reset {s : State} (h : s.nextAction = .reset) : step s = .next s.turnTaken.cpuReset :=
  step_of_stepTo (.reset h)

/-- Settles O10: the startup values, and the frame of `reset()`. -/
theorem resetRestoresTheCpuAndLeavesTheRest : Obligations.ResetRestoresTheCpuAndLeavesTheRest := by
  intro s host
  exact ⟨_, step_of_reset host, rfl, State.cpuReset_sp _, State.cpuReset_runState _, rfl, rfl, rfl, State.cpuReset_getV _,
    rfl, State.cpuReset_stackAt _, rfl, rfl, rfl, State.cpuReset_histAt _,
    (s.turnTaken_unchanged.comp (State.cpuReset_unchanged _)).mono (by simp)⟩

/-- A byte of the cleared image: the configured font below 0x050, zero above (R70). -/
theorem read_cleared (cfg : Config) {a : Nat} (ha : a < 4096) :
    Memory.read cfg [] a = if h : a < 80 then cfg.font[a] else 0 := by
  rw [Memory.read_nil, Nat.mod_eq_of_lt ha, Config.initByte]

/-- Settles O9: the CPU has its startup values, memory lists nothing, the grid is dark and every key is up. -/
theorem powerOnState : Obligations.PowerOnState := by
  exact ⟨rfl, rfl, rfl, rfl, rfl, rfl, State.cpuReset_getV .reset, rfl, State.cpuReset_stackAt .reset, rfl, rfl, rfl,
    State.cpuReset_histAt .reset, rfl, rfl, Grid.shaped_dark 64 32, rfl, fun _ ha => read_cleared Config.atReset ha,
    Grid.pixel_dark 64 32, fun k => ⟨Vector.getElem_replicate k.isLt, Vector.getElem_replicate k.isLt⟩⟩

end Sys2Proof.Machine
end

section
/-! SUPPORT. The host's operations (spec/10_state.md R39; spec/20_memory.md R70, R71; spec/60_exceptions.md R231 to R237),
each its case of a step, and the fairness of the tick over unending runs. -/

namespace Sys2Proof.Machine

/-- Settles O52: one key's two bits move on, and it is just pressed when it was up and is now down. -/
theorem setDownShiftsOneKey : Obligations.SetDownShiftsOneKey := by
  intro s k b host
  have down : (s.turnTaken.setDown k b).isDown k = b := (State.isDown_setDown _ _ _ _).trans (if_pos rfl)
  have was : (s.turnTaken.setDown k b).wasDown k = s.isDown k := (State.wasDown_setDown _ _ _ _).trans (if_pos rfl)
  refine ⟨_, step_of_stepTo (.keySet host), down, was, ?others, ?pressed,
    (s.turnTaken_unchanged.comp (State.setDown_unchanged _ _ _)).mono (by simp)⟩
  case others =>
    intro j other
    exact ⟨(State.isDown_setDown _ _ _ _).trans (if_neg other), (State.wasDown_setDown _ _ _ _).trans (if_neg other)⟩
  case pressed => rw [State.justPressed, down, was, Bool.and_eq_true, Bool.not_eq_true']

theorem State.debouncedKey_ready (s : State) : s.debouncedKey true = s.lowestDown := rfl

theorem State.debouncedKey_none {s : State} {ready : Bool} (h : ready = false ∨ ∀ k, s.isDown k = false) :
    s.debouncedKey ready = none := by
  rcases h with rfl | up
  · rfl
  · cases ready
    · rfl
    · exact State.lowestDown_eq_none.2 up

/-- Settles O53: without an answer the step is the turn alone, with one it is the three writes. -/
theorem resolveKeyCompletesTheWait : Obligations.ResolveKeyCompletesTheWait := by
  intro s ready host waiting
  refine ⟨fun h => step_of_stepTo (.noKey host waiting (State.debouncedKey_none h)), fun k isReady down lowest => ?_⟩
  have answer : s.debouncedKey ready = some k := by
    rw [isReady, State.debouncedKey_ready]
    exact State.lowestDown_eq_some.2 ⟨down, lowest⟩
  have regs : OnlyReg s.keyTarget (k.setWidth 8) s (s.turnTaken.keyTaken k) :=
    fun r => State.getV_setV s.turnTaken s.keyTarget r (k.setWidth 8)
  have key : ((k.setWidth 8 : Byte)).toNat = k.toNat := by
    have := k.isLt
    rw [BitVec.toNat_setWidth]
    omega
  exact ⟨_, step_of_stepTo (.keyTaken host waiting answer), by rw [regs.getV_same, key], fun _ => regs.getV_other, rfl, rfl,
    rfl, (s.turnTaken_unchanged.comp (State.keyTaken_unchanged _ _)).mono (by simp)⟩

/-- Settles O54: the cleared image reads as the font and zeros. -/
theorem memoryClearInstallsTheFont : Obligations.MemoryClearInstallsTheFont := by
  intro s host
  exact ⟨_, step_of_stepTo (.memCleared host), fun _ ha => read_cleared s.cfg ha,
    (s.turnTaken_unchanged.comp (State.memClear_unchanged _)).mono (by simp)⟩

/-- Settles O55: within memory the load is the store of the bytes, past its end it is refused. -/
theorem memoryLoadCopiesOrIsRefused : Obligations.MemoryLoadCopiesOrIsRefused := by
  intro s bytes base host
  constructor
  · intro fits
    exact ⟨_, step_of_stepTo (.loaded host fits), Memory.read_store s.mem base bytes fits,
      (s.turnTaken_unchanged.comp (State.loaded_unchanged _ _ _)).mono (by simp)⟩
  · intro past
    rw [step_eq, host]
    exact memLoad_of_past past

/-! ### Timers over an unending run (R232) -/

/-- From moment n on, a timer that no instruction writes: a tick counts it down, any other operation leaves it or resets
it to 0. -/
def CountsDown (host : Nat → Action) (timer : Nat → Byte) (n : Nat) : Prop :=
  ∀ k, n ≤ k → timer (k + 1) = countDown (timer k) ∨ (host k ≠ .tickTimers ∧ (timer (k + 1) = timer k ∨ timer (k + 1) = 0))

section
variable {host : Nat → Action} {timer : Nat → Byte}

theorem CountsDown.mono {n m : Nat} (counts : CountsDown host timer n) (h : n ≤ m) : CountsDown host timer m :=
  fun k hk => counts k (h.trans hk)

theorem CountsDown.tick {n k : Nat} (counts : CountsDown host timer n) (hk : n ≤ k) (tick : host k = .tickTimers) :
    timer (k + 1) = countDown (timer k) :=
  (counts k hk).resolve_right fun other => other.1 tick

theorem CountsDown.le {n m : Nat} (counts : CountsDown host timer n) (hm : n ≤ m) :
    (timer m).toNat ≤ (timer n).toNat := by
  induction m, hm using Nat.le_induction with
  | base => exact le_refl _
  | succ k hk ih =>
    rcases counts k hk with e | ⟨-, e | e⟩ <;> rw [e]
    · rw [countDown_toNat]
      omega
    · exact ih
    · exact Nat.zero_le _

/-- Under fair ticks such a timer reaches 0 and stays there: the next tick makes it smaller, and 0 it never leaves. -/
theorem CountsDown.reaches_zero (fair : FairTicks host) {n : Nat} (counts : CountsDown host timer n) :
    ∃ m, n ≤ m ∧ ∀ k, m ≤ k → timer k = 0 := by
  induction v : (timer n).toNat using Nat.strong_induction_on generalizing n with
  | _ v smaller =>
    subst v
    by_cases zero : (timer n).toNat = 0
    · refine ⟨n, le_refl n, fun k hk => BitVec.eq_of_toNat_eq ?_⟩
      have below := counts.le hk
      rw [zero] at below
      exact Nat.le_zero.1 below
    · obtain ⟨m, hm, tick⟩ := fair n
      have less : (timer (m + 1)).toNat < (timer n).toNat := by
        rw [counts.tick hm tick, countDown_toNat]
        have := counts.le hm
        omega
      obtain ⟨m', later, stays⟩ := smaller _ less (counts.mono (Nat.le_succ_of_le hm)) rfl
      exact ⟨m', by omega, stays⟩

end

/-- Performing an operation is a step of the machine that has it scheduled. -/
theorem step_of_perform {a : Action} {s t : State} (h : perform a s = .next t) :
    step { s with schedule := [a] } = .next { t with schedule := [] } := step_scheduled [] h

theorem perform_tick {s t : State} (h : perform .tickTimers s = .next t) :
    t.dt = countDown s.dt ∧ t.st = countDown s.st := by
  cases h
  exact ⟨rfl, rfl⟩

theorem perform_reset {s t : State} (h : perform .reset s = .next t) : t.dt = 0 ∧ t.st = 0 := by
  cases h
  exact ⟨rfl, rfl⟩

/-- A timer whose writers from moment n on are the tick and reset alone. -/
theorem countsDown_of_writers {timer : State → Byte} {host : Nat → Action} {s : Nat → State} {n : Nat}
    (run : IsRun host s) (onTick : ∀ {s t}, perform .tickTimers s = .next t → timer t = countDown (timer s))
    (onReset : ∀ {s t}, perform .reset s = .next t → timer t = 0)
    (writers : ∀ k, n ≤ k → timer (s (k + 1)) = timer (s k) ∨ host k = .tickTimers ∨ host k = .reset) :
    CountsDown host (fun k => timer (s k)) n := by
  intro k hk
  have here := run k
  by_cases tick : host k = .tickTimers
  · rw [tick] at here
    exact .inl (onTick here)
  · refine .inr ⟨tick, (writers k hk).imp_right fun w => ?_⟩
    rw [w.resolve_left tick] at here
    exact onReset here

/-- Of DT's writers (R29), only the tick and reset are left when LD DT, Vx does not run. -/
theorem countsDown_dt {host : Nat → Action} {s : Nat → State} {n : Nat} (run : IsRun host s)
    (unwritten : ∀ k, n ≤ k → host k = .step → (s k).runState = .running →
      ∀ x, decodeWord (s k).fetchWord ≠ .ok (.ldDtVx x)) : CountsDown host (fun k => (s k).dt) n := by
  refine countsDown_of_writers run (fun h => (perform_tick h).1) (fun h => (perform_reset h).1) fun k hk => ?_
  obtain ⟨-, -, -, same | tick | reset | ⟨x, cpu, running, d⟩, -⟩ := writersOfEachPart _ _ (step_of_perform (run k))
  · exact .inl same
  · exact .inr (.inl tick)
  · exact .inr (.inr reset)
  · exact absurd d (unwritten k hk cpu running x)

/-- Of ST's writers (R29), only the tick and reset are left when LD ST, Vx does not run. -/
theorem countsDown_st {host : Nat → Action} {s : Nat → State} {n : Nat} (run : IsRun host s)
    (unwritten : ∀ k, n ≤ k → host k = .step → (s k).runState = .running →
      ∀ x, decodeWord (s k).fetchWord ≠ .ok (.ldStVx x)) : CountsDown host (fun k => (s k).st) n := by
  refine countsDown_of_writers run (fun h => (perform_tick h).2) (fun h => (perform_reset h).2) fun k hk => ?_
  obtain ⟨-, -, -, -, same | tick | reset | ⟨x, cpu, running, d⟩, -⟩ :=
    writersOfEachPart _ _ (step_of_perform (run k))
  · exact .inl same
  · exact .inr (.inl tick)
  · exact .inr (.inr reset)
  · exact absurd d (unwritten k hk cpu running x)

/-- Settles O51: one tick is two count-downs; over a fair run a timer that is written no more counts down to 0. -/
theorem tickCountsBothTimersDown : Obligations.TickCountsBothTimersDown := by
  refine ⟨fun s host => ?tick, fun host s n run fair => ⟨fun unwritten => ?dt, fun unwritten => ?st⟩⟩
  case tick =>
    exact ⟨_, step_of_stepTo (.ticked host), countDown_toNat s.dt, countDown_toNat s.st,
      (s.turnTaken_unchanged.comp (State.tickTimers_unchanged _)).mono (by simp)⟩
  case dt => exact (countsDown_dt run unwritten).reaches_zero fair
  case st => exact (countsDown_st run unwritten).reaches_zero fair

end Sys2Proof.Machine
end
